-- ==== Sys2Proof/Word.lean ====
section
/-! DEFINITION. The bit-vector types the spec speaks of (00_scope.md R6): register values are 32 bits wide,
reply words 16, bytes 8, the adapter identity 64. -/

namespace Sys2Proof

/-- A byte of a transaction's data or of an answer (30_encoding.md R70). -/
abbrev Byte := BitVec 8

/-- A reply word (10_state.md R21). -/
abbrev Half := BitVec 16

/-- A register value (00_scope.md R6). -/
abbrev Word := BitVec 32

/-- The adapter identity, a world-wide name (10_state.md R27). -/
abbrev Identity := BitVec 64

/-- A byte offset inside a window, the field `off` of a transaction (30_encoding.md R70, R71). -/
abbrev Offset := BitVec 16

end Sys2Proof
end

