-- ==== Sys2Proof/Config.lean ====
section
/-! DEFINITION. The configuration record `Cfg` of 00_scope.md R4, with the named values it and the state use, and the
values the spec leaves free, as constants with no body. -/

namespace Sys2Proof

/-- The IOC operational state, `OPSTATE` (10_state.md R14). -/
inductive OpState where
  | reset
  | ready
  | operational
  | fault
deriving DecidableEq, Repr, Inhabited

/-- The doorbell state, `DBSTATE` (10_state.md R17). -/
inductive DbState where
  /-- idle -/
  | none
  /-- accumulating an outbound message -/
  | write
  /-- streaming a reply -/
  | read
deriving DecidableEq, Repr, Inhabited

/-- What a message handler gives back (00_scope.md R4, 41_doorbell_handshake.md R121). -/
inductive Reply where
  | noReply
  | words (ws : List Half)
deriving DecidableEq, Repr, Inhabited

/-- Where the device sits: bus, slot, function (00_scope.md R4). -/
structure Bdf where
  bus : Nat
  slot : Nat
  function : Nat
deriving DecidableEq, Repr

/-- Which message handler the platform plugs in. `platform` is the handler of which the spec says nothing but that it is
a function of the message (41_doorbell_handshake.md R121); the other four are the fixtures of 95_test_vectors.md
section 0.1, so that a run can be evaluated. -/
inductive Handler where
  | platform
  /-- `H_ECHO` -/
  | echo
  /-- `H_NONE` -/
  | silent
  /-- `H_EMPTY` -/
  | empty
  /-- `H_ZERO` -/
  | zero
deriving DecidableEq, Repr

/-- `IOC_CODE`, a function on the four operational states, written as its four values (00_scope.md R4). -/
structure IocCodes where
  reset : Word
  ready : Word
  operational : Word
  fault : Word
deriving DecidableEq, Repr

/-- The ordered key table `K[1..6]` (00_scope.md R4). -/
structure KeyTable where
  k1 : Word
  k2 : Word
  k3 : Word
  k4 : Word
  k5 : Word
  k6 : Word
deriving DecidableEq, Repr

/-- The configuration record: one field per parameter of 00_scope.md R4, in its order (`HIM_WRITABLE`, which R4 derives,
is `Cfg.himWritable`; `DeriveWWN` is `Config.deriveWwn`). -/
structure Cfg where
  offDoorbell : Offset
  offWrSeq : Offset
  offHostDiag : Offset
  offIntStatus : Offset
  offIntMask : Offset
  offHcbSize : Offset
  unimplOffsets : List Offset
  dbFnMask : Word
  dbFnShift : Nat
  dbAddMask : Word
  dbAddShift : Nat
  fnMur : Word
  fnHandshake : Word
  iocCodes : IocCodes
  dbUsed : Word
  dbDataMask : Word
  hisDoorbell : Word
  hisReply : Word
  hisReservedDb : Word
  himDoorbell : Word
  himReply : Word
  himResetIrq : Word
  resetMask : Word
  initIntMask : Word
  diagWe : Word
  diagReset : Word
  keyMask : Word
  kf : Word
  keys : KeyTable
  hcbSizeDefault : Word
  maxTargetsDefault : Nat
  maxBusesDefault : Nat
  maxLuns : Nat
  msixAvailable : Bool
  fabricMsix : Bool
  wwnOverride : Option Identity
  bdf : Bdf
  handler : Handler
  replyMax : Nat
  debugBuild : Bool
deriving DecidableEq, Repr

namespace Config

/-- DESIGN CHOICE (assumption 3). `DeriveWWN`, of which the spec assumes only that it is a function of `BDF`
(44_ioc_state_register_file.md R177). -/
opaque deriveWwn : Bdf → Identity

/-- DESIGN CHOICE (assumption 2). The platform's message handler: a function of the message, otherwise free
(41_doorbell_handshake.md R121). -/
opaque platformHandler : List Word → Reply

/-- DESIGN CHOICE (assumption 9). What a doorbell read returns for a reply index that is below `REPLYLEN` and beyond the
buffer, a state no run reaches (10_state.md R21). -/
opaque replyWordBeyondBuffer : Nat → Half

/-- DESIGN CHOICE (assumption 15). Whether the adapter offers tagged command queueing to the transport bridge: the spec
names the capability and gives it no value (44_ioc_state_register_file.md R181). -/
opaque taggedCommandQueueing : Bool

/-! DESIGN CHOICE (assumption 8). The values of the storage elements that attach and detach leave undefined
(70_reset_and_hazards.md R227, R228): a free value for each element (second argument) of each undefined object
(first argument, a count the state keeps). -/

opaque freeOpState : Nat → OpState
opaque freeDbState : Nat → DbState
opaque freeWord : Nat → Nat → Word
opaque freeNat : Nat → Nat → Nat
opaque freeWords : Nat → List Word
opaque freeHalves : Nat → List Half
opaque freeIdentity : Nat → Identity
opaque freeBool : Nat → Nat → Bool

end Config
end Sys2Proof
end

