-- ==== Sys2Proof/Machine/RefConfig.lean ====
section
/-! DEFINITION. The two configurations whose values the spec gives, `CFG_REF` and `CFG_DOCFLUSH`
(30_encoding.md R88). They are not normative (00_scope.md R9): every meaning reads the configuration in the state. -/

namespace Sys2Proof

/-- `CFG_REF` (30_encoding.md R88). The spec gives no `BDF`, which nothing reads while the override is present
(assumption 5). -/
def cfgRef : Cfg where
  offDoorbell := 0x00
  offWrSeq := 0x04
  offHostDiag := 0x08
  offIntStatus := 0x30
  offIntMask := 0x34
  offHcbSize := 0x74
  unimplOffsets := [0x38, 0x3C, 0x48, 0x6C, 0x78, 0x7C, 0xB0, 0xB4, 0xB8, 0xBC, 0xC0, 0xC4]
  dbFnMask := 0xFF000000
  dbFnShift := 24
  dbAddMask := 0x00FF0000
  dbAddShift := 16
  fnMur := 0x40
  fnHandshake := 0x42
  iocCodes := { reset := 0, ready := 1, operational := 2, fault := 3 }
  dbUsed := 0x08000000
  dbDataMask := 0x0000FFFF
  hisDoorbell := 0x00000001
  hisReply := 0x00000008
  hisReservedDb := 0x80000000
  himDoorbell := 0x00000001
  himReply := 0x00000008
  himResetIrq := 0x40000000
  resetMask := 0x40000009
  initIntMask := 0x40000009
  diagWe := 0x00000080
  diagReset := 0x00000004
  keyMask := 0x0000000F
  kf := 0x0
  keys := { k1 := 0xF, k2 := 0x4, k3 := 0xB, k4 := 0x2, k5 := 0x7, k6 := 0xD }
  hcbSizeDefault := 0x00010000
  maxTargetsDefault := 8
  maxBusesDefault := 1
  maxLuns := 1
  msixAvailable := false
  fabricMsix := false
  wwnOverride := some 0x5000000000000001
  bdf := { bus := 0, slot := 0, function := 0 }
  handler := .echo
  replyMax := 510
  debugBuild := false

/-- `CFG_DOCFLUSH`: `CFG_REF` with the document's own flush key (30_encoding.md R88). -/
def cfgDocFlush : Cfg :=
  { cfgRef with kf := 0xF, keys := { k1 := 0x1, k2 := 0x2, k3 := 0x3, k4 := 0x4, k5 := 0x5, k6 := 0x6 } }

end Sys2Proof
end

