-- ==== Sys2Proof/Syntax.lean ====
section
/-! DEFINITION. What the fabric delivers to the block, and the 28 operations of spec/opcode_table.json
(30_encoding.md R70, R72, R84). -/

namespace Sys2Proof

/-- The direction of a transaction (30_encoding.md R70). -/
inductive Dir where
  | read
  | write
deriving DecidableEq, Repr

/-- The window field of a transaction (30_encoding.md R70, R71; 20_memory.md R50). -/
inductive Window where
  /-- the 64KB memory window -/
  | mem
  /-- the 256-byte legacy I/O window -/
  | io
  /-- the 64KB diagnostic window -/
  | diagWin
  /-- code 3 of the descriptor's field, which "does not exist" (R71; assumption 6) -/
  | absent
deriving DecidableEq, Repr

/-- The six implemented registers (10_state.md R32). -/
inductive Reg where
  | doorbell
  | wrSeq
  | hostDiag
  | intStatus
  | intMask
  | hcbSize
deriving DecidableEq, Repr

/-- One input of the step function as the fabric delivers it (00_scope.md R8): a bus transaction, as its 24-bit
descriptor (30_encoding.md R71) and its write data, lowest byte first (20_memory.md R57), or one of the three fabric
events (30_encoding.md R72). -/
inductive Input where
  | transaction (tx : BitVec 24) (data : List Byte)
  | attach
  | hardReset
  | detach
deriving DecidableEq, Repr

/-- Why a delivered input is no transaction of 30_encoding.md R70. -/
inductive DecodeError where
  /-- the data is not `n` bytes of a write, or is not absent from a read -/
  | dataLength
deriving DecidableEq, Repr

/-- The part of the state that decides which operation a transaction is (10_state.md R41, 30_encoding.md R73 step 5). -/
structure Position where
  dbState : DbState
  writeIdx : Nat
  capacity : Nat
  progress : Nat
deriving DecidableEq, Repr

/-- The operations, one constructor per row of spec/opcode_table.json, in its order. `win` is the window the transaction
came through, `off` its offset, `n` its size in bytes, `v` the written value. -/
inductive Instr where
  /-- `RD.DOORBELL` -/
  | rdDoorbell (win : Window)
  /-- `WR.DOORBELL.MUR` -/
  | wrDoorbellMur (win : Window) (v : Word)
  /-- `WR.DOORBELL.DATA` -/
  | wrDoorbellData (win : Window) (v : Word)
  /-- `WR.DOORBELL.OVERRUN` -/
  | wrDoorbellOverrun (win : Window) (v : Word)
  /-- `WR.DOORBELL.HANDSHAKE` -/
  | wrDoorbellHandshake (win : Window) (v : Word)
  /-- `WR.DOORBELL.OTHERFN` -/
  | wrDoorbellOtherFn (win : Window) (v : Word)
  /-- `WR.DOORBELL.INREAD` -/
  | wrDoorbellInRead (win : Window) (v : Word)
  /-- `RD.WRSEQ` -/
  | rdWrSeq (win : Window)
  /-- `WR.WRSEQ.FLUSH` -/
  | wrWrSeqFlush (win : Window) (v : Word)
  /-- `WR.WRSEQ.MATCH` -/
  | wrWrSeqMatch (win : Window) (v : Word)
  /-- `WR.WRSEQ.MISMATCH` -/
  | wrWrSeqMismatch (win : Window) (v : Word)
  /-- `RD.HOSTDIAG` -/
  | rdHostDiag (win : Window)
  /-- `WR.HOSTDIAG` -/
  | wrHostDiag (win : Window) (v : Word)
  /-- `RD.INTSTATUS` -/
  | rdIntStatus (win : Window)
  /-- `WR.INTSTATUS` -/
  | wrIntStatus (win : Window) (v : Word)
  /-- `RD.INTMASK` -/
  | rdIntMask (win : Window)
  /-- `WR.INTMASK` -/
  | wrIntMask (win : Window) (v : Word)
  /-- `RD.HCBSIZE` -/
  | rdHcbSize (win : Window)
  /-- `WR.HCBSIZE` -/
  | wrHcbSize (win : Window) (v : Word)
  /-- `RD.DIAGWIN` -/
  | rdDiagWin (off : Offset)
  /-- `WR.DIAGWIN` -/
  | wrDiagWin (off : Offset) (v : Word)
  /-- `RD.UNIMPL` -/
  | rdUnimpl (win : Window) (off : Offset)
  /-- `WR.UNIMPL` -/
  | wrUnimpl (win : Window) (off : Offset) (v : Word)
  /-- `RD.BADWIDTH` -/
  | rdBadWidth (win : Window) (off : Offset) (n : Nat)
  /-- `WR.BADWIDTH`; its data is `n` bytes, lowest first -/
  | wrBadWidth (win : Window) (off : Offset) (n : Nat) (data : List Byte)
  /-- `EV.ATTACH` -/
  | evAttach
  /-- `EV.HARDRESET` -/
  | evHardReset
  /-- `EV.DETACH` -/
  | evDetach
deriving DecidableEq, Repr

end Sys2Proof
end

