-- ==== Sys2Proof/Machine/Operands.lean ====
section
/-! DEFINITION. Operand forms: the byte order of register data, the fields of a doorbell write, keys, the doorbell's
operational-state code, the message handler, and the conditions on data and state that select an operation
(20_memory.md R57 to R59; 30_encoding.md R74 to R78, R84). -/

namespace Sys2Proof

/-- The `k` low bytes of a number, lowest first: little-endian (20_memory.md R57). -/
def littleEndian : Nat → Nat → List Byte
  | 0, _ => []
  | k + 1, x => BitVec.ofNat 8 x :: littleEndian k (x / 256)

/-- The number whose little-endian bytes are given (20_memory.md R57). -/
def numberOfBytes : List Byte → Nat
  | [] => 0
  | b :: bs => b.toNat + 256 * numberOfBytes bs

/-- A register value as the four bytes at `off` to `off + 3` (20_memory.md R57). -/
def bytesOfWord (w : Word) : List Byte := littleEndian 4 w.toNat

/-- The value that four bytes carry (20_memory.md R57). -/
def wordOfBytes (bs : List Byte) : Word := BitVec.ofNat 32 (numberOfBytes bs)

/-- A reply word as two bytes, low then high (20_memory.md R59). -/
def bytesOfHalf (h : Half) : List Byte := littleEndian 2 h.toNat

/-- An answer of `n` zero bytes (20_memory.md R55). -/
def zeroBytes (n : Nat) : List Byte := List.replicate n 0

/-- A word carries a bit of a mask: `w & m != 0`. -/
def hasBit (w m : Word) : Bool := w &&& m != 0

/-- `fn(v)`, the function code of a doorbell write (30_encoding.md R74). -/
def Cfg.fn (c : Cfg) (v : Word) : Word := (v &&& c.dbFnMask) >>> c.dbFnShift

/-- `add(v)`, the additional-dword count of a doorbell write, not scaled (30_encoding.md R74). -/
def Cfg.add (c : Cfg) (v : Word) : Nat := ((v &&& c.dbAddMask) >>> c.dbAddShift).toNat

/-- `DB_ADD_MASK >> DB_ADD_SHIFT`, the largest count (10_state.md R18). -/
def Cfg.maxCount (c : Cfg) : Nat := (c.dbAddMask >>> c.dbAddShift).toNat

/-- `key(v)`, the compared bits of a write-sequence write (30_encoding.md R78). -/
def Cfg.key (c : Cfg) (v : Word) : Word := v &&& c.keyMask

/-- `K[p + 1]`, the key expected at progress `p`; at progress 6 there is none (43_diagnostic_unlock.md R157, R158). -/
def Cfg.expectedKey (c : Cfg) (p : Nat) : Option Word :=
  match p with
  | 0 => some c.keys.k1
  | 1 => some c.keys.k2
  | 2 => some c.keys.k3
  | 3 => some c.keys.k4
  | 4 => some c.keys.k5
  | 5 => some c.keys.k6
  | _ => none

/-- `HIM_WRITABLE` (00_scope.md R4). -/
def Cfg.himWritable (c : Cfg) : Word := c.himDoorbell ||| c.himReply ||| c.himResetIrq

/-- `IOC_CODE(s)` (30_encoding.md R77). -/
def Cfg.iocCode (c : Cfg) (o : OpState) : Word :=
  match o with
  | .reset => c.iocCodes.reset
  | .ready => c.iocCodes.ready
  | .operational => c.iocCodes.operational
  | .fault => c.iocCodes.fault

/-- The identity computed at attach (44_ioc_state_register_file.md R177). -/
def Cfg.identity (c : Cfg) : Identity :=
  match c.wwnOverride with
  | some w => w
  | none => Config.deriveWwn c.bdf

/-- The delivery mechanism chosen at attach (42_interrupt_arbiter.md R148). -/
def Cfg.usesMsix (c : Cfg) : Bool := c.msixAvailable && c.fabricMsix

/-- The handler's answer to a message (41_doorbell_handshake.md R121; the fixtures: 95_test_vectors.md section 0.1). -/
def Handler.answer (h : Handler) (msg : List Word) : Reply :=
  match h with
  | .platform => Config.platformHandler msg
  | .echo => .words (msg.flatMap fun (w : Word) => [w.setWidth 16, (w >>> (16 : Nat)).setWidth 16])
  | .silent => .noReply
  | .empty => .words []
  | .zero => .words [0, 0]

/-! The selection conditions of the operations that depend on the written value and the state
(30_encoding.md R84, 41_doorbell_handshake.md R116, 43_diagnostic_unlock.md R156 to R158). -/

/-- `WR.DOORBELL.MUR`: the function is the message-unit reset, in any state. -/
def Cfg.selectsMur (c : Cfg) (v : Word) : Bool := c.fn v == c.fnMur

/-- `WR.DOORBELL.HANDSHAKE`. -/
def Cfg.selectsHandshake (c : Cfg) (p : Position) (v : Word) : Bool :=
  !c.selectsMur v && p.dbState == .none && c.fn v == c.fnHandshake

/-- `WR.DOORBELL.OTHERFN`. -/
def Cfg.selectsOtherFn (c : Cfg) (p : Position) (v : Word) : Bool :=
  !c.selectsMur v && p.dbState == .none && c.fn v != c.fnHandshake

/-- `WR.DOORBELL.DATA`. -/
def Cfg.selectsData (c : Cfg) (p : Position) (v : Word) : Bool :=
  !c.selectsMur v && p.dbState == .write && decide (p.writeIdx < p.capacity)

/-- `WR.DOORBELL.OVERRUN`. -/
def Cfg.selectsOverrun (c : Cfg) (p : Position) (v : Word) : Bool :=
  !c.selectsMur v && p.dbState == .write && decide (p.capacity ≤ p.writeIdx)

/-- `WR.DOORBELL.INREAD`. -/
def Cfg.selectsInRead (c : Cfg) (p : Position) (v : Word) : Bool :=
  !c.selectsMur v && p.dbState == .read

/-- `WR.WRSEQ.FLUSH`. -/
def Cfg.selectsFlush (c : Cfg) (v : Word) : Bool := c.key v == c.kf

/-- The written key is the one expected next. -/
def Cfg.isExpectedKey (c : Cfg) (p : Position) (v : Word) : Bool :=
  c.expectedKey p.progress == some (c.key v)

/-- `WR.WRSEQ.MATCH`. -/
def Cfg.selectsMatch (c : Cfg) (p : Position) (v : Word) : Bool :=
  !c.selectsFlush v && c.isExpectedKey p v

/-- `WR.WRSEQ.MISMATCH`. -/
def Cfg.selectsMismatch (c : Cfg) (p : Position) (v : Word) : Bool :=
  !c.selectsFlush v && !c.isExpectedKey p v

end Sys2Proof
end

