-- ==== Sys2Proof/Machine/RegisterMap.lean ====
section
/-! DEFINITION. The windows and the decoder's dispatch table, as data (20_memory.md R50 to R54, R67;
40_register_decoder.md R95, R102, R103). -/

namespace Sys2Proof

/-- A window's size in bytes (20_memory.md R50). -/
def Window.size (w : Window) : Nat :=
  match w with
  | .mem => 0x10000
  | .io => 0x100
  | .diagWin => 0x10000
  | .absent => 0

/-- The windows that hold the register file (20_memory.md R51, R52). -/
def Window.holdsRegisters (w : Window) : Bool :=
  match w with
  | .mem => true
  | .io => true
  | .diagWin => false
  | .absent => false

/-- The offset lies inside the window (20_memory.md R67). -/
def Window.reaches (w : Window) (off : Offset) : Bool := decide (off.toNat < w.size)

/-- A register's offset (10_state.md R32). -/
def Cfg.offsetOf (c : Cfg) (r : Reg) : Offset :=
  match r with
  | .doorbell => c.offDoorbell
  | .wrSeq => c.offWrSeq
  | .hostDiag => c.offHostDiag
  | .intStatus => c.offIntStatus
  | .intMask => c.offIntMask
  | .hcbSize => c.offHcbSize

/-- The registers in the order the decoder compares them (40_register_decoder.md R95). -/
def Reg.all : List Reg := [.doorbell, .wrSeq, .hostDiag, .intStatus, .intMask, .hcbSize]

/-- One table per window (40_register_decoder.md R103): `MEM` and `IO` have the same rows, the diagnostic window none. -/
def Cfg.dispatchTable (c : Cfg) (w : Window) : List (Offset × Reg) :=
  if w.holdsRegisters then Reg.all.map (fun r => (c.offsetOf r, r)) else []

/-- The register an offset of a window names, if any; an offset beyond the window is an unknown offset
(40_register_decoder.md R95, 20_memory.md R67). -/
def Cfg.registerAt (c : Cfg) (w : Window) (off : Offset) : Option Reg :=
  if w.reaches off then (c.dispatchTable w).lookup off else none

/-- The offset of a named register that exists but is not implemented (40_register_decoder.md R100; beyond the window it
is an unknown offset, 20_memory.md R67). -/
def Cfg.isUnimplemented (c : Cfg) (w : Window) (off : Offset) : Bool :=
  w.reaches off && c.unimplOffsets.contains off

/-- The access is not 4 bytes wide or not 4-byte aligned (20_memory.md R55, R56). -/
def badWidth (off : Offset) (n : Nat) : Bool := n != 4 || off.toNat % 4 != 0

end Sys2Proof
end

