-- ==== Sys2Proof/WellFormed.lean ====
section
/-! DEFINITION. Well-formed configurations (00_scope.md R5) and well-formed operations: the operand ranges of
30_encoding.md R70 and R84 (`Instr.wellFormed`) and the conditions on data and state that select an operation
(`Instr.selected`). -/

namespace Sys2Proof

/-- Exactly one bit of the word is set (the one-bit masks of 00_scope.md R4). -/
def isSingleBit (w : Word) : Bool := (List.range 32).any fun i => w == 1#32 <<< i

/-- The mask is a contiguous field of at least one bit whose lowest bit is at `shift` (00_scope.md R5 item 2;
assumption 13). -/
def isFieldAt (mask : Word) (shift : Nat) : Bool :=
  (List.range 33).any fun w =>
    decide (0 < w) && decide (shift + w ≤ 32) && decide (mask.toNat = (2 ^ w - 1) * 2 ^ shift)

/-- The six offsets of the implemented registers. -/
def Cfg.offsets (c : Cfg) : List Offset := Reg.all.map c.offsetOf

/-- R5 item 1. -/
def Cfg.wfOffsets (c : Cfg) : Bool :=
  decide c.offsets.Nodup &&
  c.offsets.all fun o => decide (o.toNat % 4 = 0) && decide (o.toNat < 0x100) && !c.unimplOffsets.contains o

/-- R5 item 2. -/
def Cfg.wfDoorbellWrite (c : Cfg) : Bool :=
  isFieldAt c.dbFnMask c.dbFnShift && isFieldAt c.dbAddMask c.dbAddShift &&
  (c.dbFnMask &&& c.dbAddMask == 0) && c.fnMur != c.fnHandshake &&
  decide (c.fnMur ≤ c.dbFnMask >>> c.dbFnShift) && decide (c.fnHandshake ≤ c.dbFnMask >>> c.dbFnShift)

/-- R5 item 3, and the one-bit type R4 gives `DB_USED`. -/
def Cfg.wfDoorbellRead (c : Cfg) : Bool :=
  let codes := [c.iocCodes.reset, c.iocCodes.ready, c.iocCodes.operational, c.iocCodes.fault]
  isSingleBit c.dbUsed && (c.dbDataMask == 0x0000FFFF) && (c.dbUsed &&& c.dbDataMask == 0) &&
  (codes.all fun k => k &&& c.dbUsed == 0) && decide codes.Nodup

/-- R5 item 4, and the one-bit types R4 gives the mask bits. -/
def Cfg.wfInterrupt (c : Cfg) : Bool :=
  isSingleBit c.hisDoorbell && isSingleBit c.hisReply && isSingleBit c.hisReservedDb &&
  decide [c.hisDoorbell, c.hisReply, c.hisReservedDb].Nodup &&
  (c.himDoorbell == c.hisDoorbell) && (c.himReply == c.hisReply) && isSingleBit c.himResetIrq

/-- R5 item 5. -/
def Cfg.wfDiag (c : Cfg) : Bool :=
  isSingleBit c.diagWe && isSingleBit c.diagReset && c.diagWe != c.diagReset

/-- The six keys in order. -/
def KeyTable.toList (k : KeyTable) : List Word := [k.k1, k.k2, k.k3, k.k4, k.k5, k.k6]

/-- R5 item 6. -/
def Cfg.wfKeys (c : Cfg) : Bool :=
  (c.kf &&& c.keyMask == c.kf) && (c.keys.toList.all fun k => k &&& c.keyMask == k) && !c.keys.toList.contains c.kf

/-- R5 item 8. -/
def Cfg.wfInitMask (c : Cfg) : Bool := c.initIntMask &&& ~~~c.himWritable == 0

/-- The decidable items of R5, and the LUN count R4 fixes. -/
def Cfg.wf (c : Cfg) : Bool :=
  c.wfOffsets && c.wfDoorbellWrite && c.wfDoorbellRead && c.wfInterrupt && c.wfDiag && c.wfKeys && c.wfInitMask &&
  (c.maxLuns == 1)

/-- R5 item 7, on the messages the block can hand over, of at most `DB_ADD_MASK >> DB_ADD_SHIFT` words (assumption 13). -/
def Cfg.HandlerBounded (c : Cfg) : Prop :=
  ∀ msg : List Word, msg.length ≤ c.maxCount → ∀ ws, c.handler.answer msg = .words ws → ws.length ≤ c.replyMax

/-- A well-formed configuration (R5). -/
def Cfg.WF (c : Cfg) : Prop := c.wf = true ∧ c.HandlerBounded

/-- The operand is an aligned offset of `MEM` or `IO` that names no implemented register (40_register_decoder.md R100). -/
def Cfg.isUnimplOperand (c : Cfg) (win : Window) (off : Offset) : Bool :=
  win.holdsRegisters && decide (off.toNat % 4 = 0) && (c.registerAt win off).isNone

/-- The operand ranges of an operation that no other operation takes: the size fits its field and the access is not one
that is decoded further (30_encoding.md R71, 40_register_decoder.md R96; code 3 of the window field: assumption 6). -/
def isBadWidthOperand (win : Window) (off : Offset) (n : Nat) : Bool :=
  decide (n < 32) && (badWidth off n || win == .absent)

/-- The static operand check of an operation (30_encoding.md R70, R84). -/
def Instr.wellFormed (c : Cfg) (i : Instr) : Bool :=
  match i with
  | .rdDoorbell win => win.holdsRegisters
  | .wrDoorbellMur win _ => win.holdsRegisters
  | .wrDoorbellData win _ => win.holdsRegisters
  | .wrDoorbellOverrun win _ => win.holdsRegisters
  | .wrDoorbellHandshake win _ => win.holdsRegisters
  | .wrDoorbellOtherFn win _ => win.holdsRegisters
  | .wrDoorbellInRead win _ => win.holdsRegisters
  | .rdWrSeq win => win.holdsRegisters
  | .wrWrSeqFlush win _ => win.holdsRegisters
  | .wrWrSeqMatch win _ => win.holdsRegisters
  | .wrWrSeqMismatch win _ => win.holdsRegisters
  | .rdHostDiag win => win.holdsRegisters
  | .wrHostDiag win _ => win.holdsRegisters
  | .rdIntStatus win => win.holdsRegisters
  | .wrIntStatus win _ => win.holdsRegisters
  | .rdIntMask win => win.holdsRegisters
  | .wrIntMask win _ => win.holdsRegisters
  | .rdHcbSize win => win.holdsRegisters
  | .wrHcbSize win _ => win.holdsRegisters
  | .rdDiagWin off => decide (off.toNat % 4 = 0)
  | .wrDiagWin off _ => decide (off.toNat % 4 = 0)
  | .rdUnimpl win off => c.isUnimplOperand win off
  | .wrUnimpl win off _ => c.isUnimplOperand win off
  | .rdBadWidth win off n => isBadWidthOperand win off n
  | .wrBadWidth win off n data => isBadWidthOperand win off n && decide (data.length = n)
  | .evAttach => true
  | .evHardReset => true
  | .evDetach => true

/-- The data and state conditions that select an operation (30_encoding.md R84); true for an operation whose selection
depends on neither. -/
def Instr.selected (c : Cfg) (p : Position) (i : Instr) : Bool :=
  match i with
  | .wrDoorbellMur _ v => c.selectsMur v
  | .wrDoorbellData _ v => c.selectsData p v
  | .wrDoorbellOverrun _ v => c.selectsOverrun p v
  | .wrDoorbellHandshake _ v => c.selectsHandshake p v
  | .wrDoorbellOtherFn _ v => c.selectsOtherFn p v
  | .wrDoorbellInRead _ v => c.selectsInRead p v
  | .wrWrSeqFlush _ v => c.selectsFlush v
  | .wrWrSeqMatch _ v => c.selectsMatch p v
  | .wrWrSeqMismatch _ v => c.selectsMismatch p v
  | .rdDoorbell _ => true
  | .rdWrSeq _ => true
  | .rdHostDiag _ => true
  | .wrHostDiag _ _ => true
  | .rdIntStatus _ => true
  | .wrIntStatus _ _ => true
  | .rdIntMask _ => true
  | .wrIntMask _ _ => true
  | .rdHcbSize _ => true
  | .wrHcbSize _ _ => true
  | .rdDiagWin _ => true
  | .wrDiagWin _ _ => true
  | .rdUnimpl _ _ => true
  | .wrUnimpl _ _ _ => true
  | .rdBadWidth _ _ _ => true
  | .wrBadWidth _ _ _ _ => true
  | .evAttach => true
  | .evHardReset => true
  | .evDetach => true

end Sys2Proof
end

