-- ==== Sys2Proof/Decode.lean ====
section
/-! DEFINITION. The decoder, total on every input, in the order of 30_encoding.md R73 and 40_register_decoder.md R95, and
the encoder (30_encoding.md R71, R84). -/

namespace Sys2Proof

/-! ## The transaction descriptor (30_encoding.md R71) -/

/-- The code of a direction, `tx[23]`. -/
def Dir.code (d : Dir) : BitVec 1 :=
  match d with
  | .read => 0
  | .write => 1

/-- The code of a window, `tx[22:21]`. -/
def Window.code (w : Window) : BitVec 2 :=
  match w with
  | .mem => 0
  | .io => 1
  | .diagWin => 2
  | .absent => 3

/-- The direction a code stands for. -/
def dirOfCode (b : BitVec 1) : Dir := if b = 0 then .read else .write

/-- The window a code stands for. -/
def windowOfCode (b : BitVec 2) : Window :=
  if b = 0 then .mem else if b = 1 then .io else if b = 2 then .diagWin else .absent

/-- `tx[23]`. -/
def txDir (tx : BitVec 24) : Dir := dirOfCode (tx.extractLsb' 23 1)

/-- `tx[22:21]`. -/
def txWindow (tx : BitVec 24) : Window := windowOfCode (tx.extractLsb' 21 2)

/-- `tx[20:16]`, the size in bytes, as a number. -/
def txSize (tx : BitVec 24) : Nat := (tx.extractLsb' 16 5).toNat

/-- `tx[15:0]`. -/
def txOffset (tx : BitVec 24) : Offset := tx.extractLsb' 0 16

/-- The descriptor of a transaction. -/
def packTx (d : Dir) (w : Window) (n : Nat) (off : Offset) : BitVec 24 :=
  d.code ++ w.code ++ BitVec.ofNat 5 n ++ off

/-! ## Decoding -/

/-- The operation a doorbell write is (41_doorbell_handshake.md R116). -/
def decodeDoorbellWrite (c : Cfg) (p : Position) (win : Window) (v : Word) : Instr :=
  if c.fn v = c.fnMur then .wrDoorbellMur win v
  else
    match p.dbState with
    | .write => if p.writeIdx < p.capacity then .wrDoorbellData win v else .wrDoorbellOverrun win v
    | .none => if c.fn v = c.fnHandshake then .wrDoorbellHandshake win v else .wrDoorbellOtherFn win v
    | .read => .wrDoorbellInRead win v

/-- The operation a write-sequence write is: flush, then match, then mismatch (43_diagnostic_unlock.md section 2). -/
def decodeWrSeqWrite (c : Cfg) (p : Position) (win : Window) (v : Word) : Instr :=
  if c.key v = c.kf then .wrWrSeqFlush win v
  else if c.expectedKey p.progress = some (c.key v) then .wrWrSeqMatch win v
  else .wrWrSeqMismatch win v

/-- A read of an offset of `MEM` or `IO` (40_register_decoder.md R95). -/
def decodeRegisterRead (c : Cfg) (win : Window) (off : Offset) : Instr :=
  match c.registerAt win off with
  | some .doorbell => .rdDoorbell win
  | some .wrSeq => .rdWrSeq win
  | some .hostDiag => .rdHostDiag win
  | some .intStatus => .rdIntStatus win
  | some .intMask => .rdIntMask win
  | some .hcbSize => .rdHcbSize win
  | none => .rdUnimpl win off

/-- A write to an offset of `MEM` or `IO` (40_register_decoder.md R95). -/
def decodeRegisterWrite (c : Cfg) (p : Position) (win : Window) (off : Offset) (v : Word) : Instr :=
  match c.registerAt win off with
  | some .doorbell => decodeDoorbellWrite c p win v
  | some .wrSeq => decodeWrSeqWrite c p win v
  | some .hostDiag => .wrHostDiag win v
  | some .intStatus => .wrIntStatus win v
  | some .intMask => .wrIntMask win v
  | some .hcbSize => .wrHcbSize win v
  | none => .wrUnimpl win off v

/-- The operation a read is: width, then window, then offset (30_encoding.md R73). -/
def decodeRead (c : Cfg) (win : Window) (off : Offset) (n : Nat) : Instr :=
  if badWidth off n then .rdBadWidth win off n
  else
    match win with
    | .diagWin => .rdDiagWin off
    | .mem => decodeRegisterRead c .mem off
    | .io => decodeRegisterRead c .io off
    | .absent => .rdBadWidth .absent off n

/-- The operation a write is (30_encoding.md R73). -/
def decodeWrite (c : Cfg) (p : Position) (win : Window) (off : Offset) (n : Nat) (data : List Byte) : Instr :=
  if badWidth off n then .wrBadWidth win off n data
  else
    match win with
    | .diagWin => .wrDiagWin off (wordOfBytes data)
    | .mem => decodeRegisterWrite c p .mem off (wordOfBytes data)
    | .io => decodeRegisterWrite c p .io off (wordOfBytes data)
    | .absent => .wrBadWidth .absent off n data

/-- The operation an input is, in a given position of the block. A read carries no data and a write of size `n` carries
`n` bytes (30_encoding.md R70); anything else is rejected by name. -/
def decode (c : Cfg) (p : Position) (inp : Input) : Except DecodeError Instr :=
  match inp with
  | .attach => .ok .evAttach
  | .hardReset => .ok .evHardReset
  | .detach => .ok .evDetach
  | .transaction tx data =>
    match txDir tx with
    | .read =>
      if data.length = 0 then .ok (decodeRead c (txWindow tx) (txOffset tx) (txSize tx)) else .error .dataLength
    | .write =>
      if data.length = txSize tx then .ok (decodeWrite c p (txWindow tx) (txOffset tx) (txSize tx) data)
      else .error .dataLength

/-! ## Encoding -/

/-- A 4-byte read of a register. -/
def encodeRead (c : Cfg) (win : Window) (r : Reg) : Input := .transaction (packTx .read win 4 (c.offsetOf r)) []

/-- A 4-byte write to a register. -/
def encodeWrite (c : Cfg) (win : Window) (r : Reg) (v : Word) : Input :=
  .transaction (packTx .write win 4 (c.offsetOf r)) (bytesOfWord v)

/-- The input an operation stands for: its descriptor followed by the data of a write (30_encoding.md R71, R84, R85). -/
def encode (c : Cfg) (i : Instr) : Input :=
  match i with
  | .rdDoorbell win => encodeRead c win .doorbell
  | .wrDoorbellMur win v => encodeWrite c win .doorbell v
  | .wrDoorbellData win v => encodeWrite c win .doorbell v
  | .wrDoorbellOverrun win v => encodeWrite c win .doorbell v
  | .wrDoorbellHandshake win v => encodeWrite c win .doorbell v
  | .wrDoorbellOtherFn win v => encodeWrite c win .doorbell v
  | .wrDoorbellInRead win v => encodeWrite c win .doorbell v
  | .rdWrSeq win => encodeRead c win .wrSeq
  | .wrWrSeqFlush win v => encodeWrite c win .wrSeq v
  | .wrWrSeqMatch win v => encodeWrite c win .wrSeq v
  | .wrWrSeqMismatch win v => encodeWrite c win .wrSeq v
  | .rdHostDiag win => encodeRead c win .hostDiag
  | .wrHostDiag win v => encodeWrite c win .hostDiag v
  | .rdIntStatus win => encodeRead c win .intStatus
  | .wrIntStatus win v => encodeWrite c win .intStatus v
  | .rdIntMask win => encodeRead c win .intMask
  | .wrIntMask win v => encodeWrite c win .intMask v
  | .rdHcbSize win => encodeRead c win .hcbSize
  | .wrHcbSize win v => encodeWrite c win .hcbSize v
  | .rdDiagWin off => .transaction (packTx .read .diagWin 4 off) []
  | .wrDiagWin off v => .transaction (packTx .write .diagWin 4 off) (bytesOfWord v)
  | .rdUnimpl win off => .transaction (packTx .read win 4 off) []
  | .wrUnimpl win off v => .transaction (packTx .write win 4 off) (bytesOfWord v)
  | .rdBadWidth win off n => .transaction (packTx .read win n off) []
  | .wrBadWidth win off n data => .transaction (packTx .write win n off) data
  | .evAttach => .attach
  | .evHardReset => .hardReset
  | .evDetach => .detach

/-! ## The opcode table's numbers -/

/-- The input whose bits are the low `nbits` bits of `w`: the descriptor in bits 23..0, then the data of a write, byte by
byte (30_encoding.md R85: a line is its descriptor followed by its data). -/
def inputOfNumber (nbits w : Nat) : Input :=
  let x := w % 2 ^ nbits
  let tx := BitVec.ofNat 24 x
  .transaction tx
    (match txDir tx with
     | .read => []
     | .write => littleEndian (txSize tx) (x / 2 ^ 24))

/-- The position right after reset: idle, nothing counted (70_reset_and_hazards.md R229). -/
def Position.start : Position := { dbState := .none, writeIdx := 0, capacity := 0, progress := 0 }

/-- The operation the decoder reads from an opcode-table word, under `CFG_REF`, whose values the table's are
(30_encoding.md R71), and right after reset. -/
def decodeTableWord (nbits w : Nat) : Option Instr :=
  match decode cfgRef Position.start (inputOfNumber nbits w) with
  | .ok i => some i
  | .error _ => none

end Sys2Proof
end

