-- ==== Sys2Proof/Machine/Flags.lean ====
section
/-! DEFINITION. The computed flags: the interrupt signal (42_interrupt_arbiter.md R140), the used flag and the value of
a doorbell read (41_doorbell_handshake.md R126, 30_encoding.md R77). -/

namespace Sys2Proof

/-- `Asserted(status, mask)` (42_interrupt_arbiter.md R140). -/
def Cfg.asserted (c : Cfg) (status mask : Word) : Bool :=
  status &&& ~~~(mask ||| c.hisReservedDb) != 0

/-- The used flag of a doorbell read: set exactly in WRITE and READ (41_doorbell_handshake.md R126). -/
def Cfg.usedFlag (c : Cfg) (d : DbState) : Word :=
  match d with
  | .none => 0
  | .write => c.dbUsed
  | .read => c.dbUsed

/-- The reply data field: the low 16 bits, no shift (30_encoding.md R77). -/
def replyField (h : Half) : Word := h.setWidth 32 &&& 0xFFFF#32

end Sys2Proof
end

