-- ==== Sys2Proof/Machine/State.lean ====
section
/-! DEFINITION. The state of the block: the 19 storage elements of 10_state.md R14 to R30, the configuration it was built
with, the pending inputs, and the output of the last step (00_scope.md R8); the outcomes that stop it; the reset state
(70_reset_and_hazards.md R229). -/

namespace Sys2Proof.Machine

/-- `LIFE` (10_state.md R30). -/
inductive Life where
  | detached
  | attached
  | halted
deriving DecidableEq, Repr

/-- What a violation of a register access records: a read of an offset, or a write of a value to it
(60_exceptions.md R195). -/
inductive Access where
  | read (off : Offset)
  | write (off : Offset) (v : Word)
deriving DecidableEq, Repr

/-- What `IV_STATE` records. DESIGN CHOICE (assumption 19): 41_doorbell_handshake.md R128 logs it with `state` and says
nowhere what that holds; the model records the six elements its check reads. -/
structure DoorbellSnapshot where
  dbState : DbState
  writeIdx : Nat
  capacity : Nat
  readIdx : Nat
  replyLen : Nat
  intStatus : Word
deriving DecidableEq, Repr

/-- The violation codes, each with what it records (60_exceptions.md R191 to R200). -/
inductive Violation where
  /-- `PV_WIDTH` -/
  | width (dir : Dir) (win : Window) (off : Offset) (n : Nat)
  /-- `PV_KEY` -/
  | key (k : Word) (progress : Nat)
  /-- `PV_DB_INDEX` -/
  | dbIndex (v : Word) (writeIdx capacity : Nat)
  /-- `PV_DB_WRITE_IN_READ` -/
  | dbWriteInRead (v : Word)
  /-- `UA_UNKNOWN_OFFSET` -/
  | unknownOffset (acc : Access)
  /-- `UA_UNIMPLEMENTED` -/
  | unimplemented (acc : Access)
  /-- `UA_DIAG_WINDOW` -/
  | diagWindow (acc : Access)
  /-- `UA_DB_FUNCTION` -/
  | dbFunction (v : Word)
  /-- `UA_WO_READ` -/
  | writeOnlyRead (off : Offset)
  /-- `IV_STATE`; what it records is the model's choice (assumption 19) -/
  | state (snap : DoorbellSnapshot)
deriving DecidableEq, Repr

/-- The codes `raise Fatal` takes: `IV_STATE` alone (60_exceptions.md R200). -/
inductive FatalCode where
  | state
deriving DecidableEq, Repr

/-- The output events of a step (00_scope.md R8). -/
inductive Event where
  /-- `IrqLine(level)` -/
  | irqLine (level : Bool)
  /-- `MsixNotify(vector)` -/
  | msixNotify (vector : Nat)
  /-- `TransportReset` -/
  | transportReset
  /-- `Violation(code, info)` -/
  | violation (v : Violation)
  /-- `Fatal(code)` -/
  | fatal (code : FatalCode)
deriving DecidableEq, Repr

/-- The state of the machine. -/
structure State where
  /-- the configuration: constant, carried so that a claim is about every configuration (R4, R44; assumption 1) -/
  cfg : Cfg
  /-- `LIFE`, R30 -/
  life : Life
  /-- `OPSTATE`, R14 -/
  opState : OpState
  /-- `INTSTATUS`, R15 -/
  intStatus : Word
  /-- `INTMASK`, R16 -/
  intMask : Word
  /-- `DBSTATE`, R17 -/
  dbState : DbState
  /-- `CAPACITY`, R18 -/
  capacity : Nat
  /-- `WRITEIDX`, R19 -/
  writeIdx : Nat
  /-- `OUTBUF`, R20 -/
  outBuf : List Word
  /-- `REPLYBUF`, R21 -/
  replyBuf : List Half
  /-- `REPLYLEN`, R21 -/
  replyLen : Nat
  /-- `READIDX`, R22 -/
  readIdx : Nat
  /-- `PROGRESS`, R23 -/
  progress : Nat
  /-- `DIAG`, R24 -/
  diag : Word
  /-- `HCBSIZE`, R25 -/
  hcbSize : Word
  /-- `MAXTARGETS`, R26 -/
  maxTargets : Nat
  /-- `MAXBUSES`, R26 -/
  maxBuses : Nat
  /-- `WWN`, R27 -/
  wwn : Identity
  /-- `MSIX_INUSE`, R28 -/
  msixInUse : Bool
  /-- `IRQLINE`, R29 -/
  irqLine : Bool
  /-- the inputs the fabric will deliver, next first (R8; assumption 4) -/
  inputs : List Input
  /-- the last step's `rdata`, lowest byte first; none for a write or an event (R8) -/
  rdata : Option (List Byte)
  /-- the last step's events, in order (R8) -/
  events : List Event
  /-- the model's own: how many undefined objects there have been (assumption 8) -/
  freeCount : Nat
deriving DecidableEq, Repr

/-- Why a step stops with a fault. -/
inductive Fault where
  /-- Raised while `LIFE` is HALTED by every operation, and by a step with no input pending (60_exceptions.md R200: "a
  fault: never a final state, never cleared"; a detach: assumption 10). Safe: the model stops, and nothing is claimed of
  what a halted block does. -/
  | halted
deriving DecidableEq, Repr

/-- Why a step is refused. -/
inductive Refusal where
  /-- Raised by an arm of `exec` whose operation has no meaning yet. Safe. -/
  | notModelled (mnemonic : String)
  /-- Raised by every operation but an attach while `LIFE` is DETACHED (10_state.md R30, 92_eei_decisions.md D35: "no
  step" is refusal). Safe. -/
  | detached
  /-- Raised by an attach while `LIFE` is ATTACHED (70_reset_and_hazards.md R227: it "has no step"). Safe. -/
  | alreadyAttached
  /-- Raised by a doorbell or write-sequence write handed to `exec` in a state, or with a value, that does not select it
  (30_encoding.md R84): no access is that operation there. Never raised by a step. Safe. -/
  | notSelected
  /-- Raised by a step whose input is no transaction: its data is not `n` bytes of a write or not absent from a read
  (30_encoding.md R70). Safe. -/
  | malformedInput
deriving DecidableEq, Repr

/-- The outcome of a meaning. -/
abbrev Result := Host.Outcome State Fault Refusal

/-- The state right after reset: that of 70_reset_and_hazards.md R229 under `CFG_REF`, nothing delivered yet. -/
def State.reset : State where
  cfg := cfgRef
  life := .attached
  opState := .ready
  intStatus := 0
  intMask := cfgRef.initIntMask
  dbState := .none
  capacity := 0
  writeIdx := 0
  outBuf := []
  replyBuf := []
  replyLen := 0
  readIdx := 0
  progress := 0
  diag := 0
  hcbSize := cfgRef.hcbSizeDefault
  maxTargets := cfgRef.maxTargetsDefault
  maxBuses := cfgRef.maxBusesDefault
  wwn := cfgRef.identity
  msixInUse := cfgRef.usesMsix
  irqLine := false
  inputs := []
  rdata := none
  events := []
  freeCount := 0

end Sys2Proof.Machine
end

