-- ==== Sys2Proof/Machine/Ops.lean ====
section
/-! DEFINITION. The operations every meaning is built from: events and answers, the interrupt (raising it and its
delivery), violations and the fatal one (what stands here for taking an exception), the reset procedures, message
completion, and the gates every operation passes. -/

namespace Sys2Proof.Machine

/-! ## Output -/

/-- Append an event to the step's list (00_scope.md R7, R8). -/
def State.emit (s : State) (e : Event) : State := { s with events := s.events ++ [e] }

/-- `raise Violation`: append it to the step's events and continue (00_scope.md R7, 60_exceptions.md R212). -/
def State.raiseViolation (s : State) (v : Violation) : State := s.emit (.violation v)

/-- The three classes of abnormal events (60_exceptions.md R190). -/
inductive ViolationClass where
  /-- (a), a protocol violation -/
  | protocol
  /-- (b), an invariant violation -/
  | invariant
  /-- (c), an unsupported or unknown register access -/
  | registerAccess
deriving DecidableEq, Repr

/-- The class of a violation code (60_exceptions.md R190 to R200). -/
def Violation.kind (v : Violation) : ViolationClass :=
  match v with
  | .width _ _ _ _ => .protocol
  | .key _ _ => .protocol
  | .dbIndex _ _ _ => .protocol
  | .dbWriteInRead _ => .protocol
  | .unknownOffset _ => .registerAccess
  | .unimplemented _ => .registerAccess
  | .diagWindow _ => .registerAccess
  | .dbFunction _ => .registerAccess
  | .writeOnlyRead _ => .registerAccess
  | .state _ => .invariant

/-- `raise Fatal(IV_STATE)`: the event, and the block stops, `LIFE <- HALTED`, with no answer to the access
(00_scope.md R7, 60_exceptions.md R200). -/
def State.raiseFatal (s : State) : State := { s.emit (.fatal .state) with life := .halted, rdata := none }

/-- `return v` for a 4-byte read (00_scope.md R7, 20_memory.md R57). -/
def State.answer (s : State) (v : Word) : State := { s with rdata := some (bytesOfWord v) }

/-- `return 0` for a read of `n` bytes (40_register_decoder.md R96). -/
def State.answerZeros (s : State) (n : Nat) : State := { s with rdata := some (zeroBytes n) }

/-! ## The interrupt -/

/-- The signal as the state gives it (42_interrupt_arbiter.md R140). -/
def State.asserted (s : State) : Bool := s.cfg.asserted s.intStatus s.intMask

/-- `IrqEval()` (42_interrupt_arbiter.md R141). -/
def State.irqEval (s : State) : State :=
  if s.msixInUse then
    if s.asserted then s.emit (.msixNotify 0) else s
  else
    { s with irqLine := s.asserted }.emit (.irqLine s.asserted)

/-- Raising the doorbell interrupt: set the status bit, then `IrqEval()` (60_exceptions.md R203). -/
def State.raiseDoorbellInterrupt (s : State) : State :=
  { s with intStatus := s.intStatus ||| s.cfg.hisDoorbell }.irqEval

/-- Clearing the doorbell interrupt status bit, and no other (42_interrupt_arbiter.md R144). -/
def State.clearDoorbellStatus (s : State) : State :=
  { s with intStatus := s.intStatus &&& ~~~s.cfg.hisDoorbell }

/-! ## Resets -/

/-- `SoftReset()` (70_reset_and_hazards.md R225). -/
def State.softReset (s : State) : State :=
  let masked := { s with intMask := s.cfg.resetMask }.irqEval
  let cleared := { masked.emit .transportReset with intStatus := 0 }
  let restored := { cleared with intMask := s.intMask }.irqEval
  { restored with
    opState := .ready, dbState := .none, capacity := 0, writeIdx := 0, outBuf := [],
    replyLen := 0, readIdx := 0, replyBuf := [] }

/-- `HardReset()` (70_reset_and_hazards.md R226). -/
def State.hardReset (s : State) : State :=
  let soft := { s with intMask := s.cfg.initIntMask }.softReset
  { soft with
    maxTargets := s.cfg.maxTargetsDefault, maxBuses := s.cfg.maxBusesDefault,
    hcbSize := s.cfg.hcbSizeDefault, progress := 0, diag := 0 }

/-- `DiagReset()` (43_diagnostic_unlock.md R162). -/
def State.diagResetNow (s : State) : State :=
  let soft := { s with diag := s.diag ||| s.cfg.diagReset }.softReset
  { soft with progress := 0, diag := 0, hcbSize := s.cfg.hcbSizeDefault }

/-- Every storage element but `LIFE` becomes undefined: free values of a fresh object (70_reset_and_hazards.md R227,
R228; assumption 8). -/
def State.undefineElements (s : State) : State :=
  { s with
    opState := Config.freeOpState s.freeCount
    intStatus := Config.freeWord s.freeCount 0
    intMask := Config.freeWord s.freeCount 1
    dbState := Config.freeDbState s.freeCount
    capacity := Config.freeNat s.freeCount 0
    writeIdx := Config.freeNat s.freeCount 1
    outBuf := Config.freeWords s.freeCount
    replyBuf := Config.freeHalves s.freeCount
    replyLen := Config.freeNat s.freeCount 2
    readIdx := Config.freeNat s.freeCount 3
    progress := Config.freeNat s.freeCount 4
    diag := Config.freeWord s.freeCount 2
    hcbSize := Config.freeWord s.freeCount 3
    maxTargets := Config.freeNat s.freeCount 5
    maxBuses := Config.freeNat s.freeCount 6
    wwn := Config.freeIdentity s.freeCount
    msixInUse := Config.freeBool s.freeCount 0
    irqLine := Config.freeBool s.freeCount 1
    freeCount := s.freeCount + 1 }

/-! ## Message completion -/

/-- Entering READ with a reply (41_doorbell_handshake.md R120). -/
def State.enterRead (s : State) (ws : List Half) : State :=
  { s with replyBuf := ws, replyLen := ws.length, readIdx := 0, dbState := .read }.raiseDoorbellInterrupt

/-- `MsgComplete()` (41_doorbell_handshake.md R120). -/
def State.msgComplete (s : State) : State :=
  match s.cfg.handler.answer s.outBuf with
  | .words ws => s.enterRead ws
  | .noReply => { s with dbState := .none }

/-! ## The gates -/

/-- Every access, and a hard reset, needs `LIFE` to be ATTACHED (30_encoding.md R73 step 1, 10_state.md R30). -/
def whenAttached (s : State) (k : State → Result) : Result :=
  match s.life with
  | .attached => k s
  | .halted => .fault .halted
  | .detached => .refused .detached

/-- The condition of the invariant check; that `DBSTATE` is one of three holds by its type
(41_doorbell_handshake.md R128). -/
def State.consistent (s : State) : Bool :=
  decide (s.writeIdx ≤ s.capacity) && decide (s.readIdx ≤ s.replyLen) &&
  (s.dbState != .read || hasBit s.intStatus s.cfg.hisDoorbell)

/-- What `IV_STATE` records of the state: the six elements the check of 41_doorbell_handshake.md R128 reads. That it is
these is the model's own (DESIGN CHOICE, assumption 19). -/
def State.snapshot (s : State) : DoorbellSnapshot :=
  { dbState := s.dbState, writeIdx := s.writeIdx, capacity := s.capacity, readIdx := s.readIdx,
    replyLen := s.replyLen, intStatus := s.intStatus }

/-- The self-correction of an invariant violation: logged, forced to NONE, indices cleared
(41_doorbell_handshake.md R128). -/
def State.selfCorrect (s : State) : State :=
  { s.raiseViolation (.state s.snapshot) with
    dbState := .none, writeIdx := 0, readIdx := 0, capacity := 0, replyLen := 0 }

/-- The invariant check at the start of a doorbell read, a doorbell write and an interrupt status write: fatal in a debug
build, else corrected, and the access goes on (41_doorbell_handshake.md R128, 60_exceptions.md R200). -/
def withStateCheck (s : State) (k : State → Result) : Result :=
  if s.consistent then k s
  else if s.cfg.debugBuild then .next s.raiseFatal
  else k s.selfCorrect

/-- The position that selects an operation (10_state.md R41). -/
def State.position (s : State) : Position :=
  { dbState := s.dbState, writeIdx := s.writeIdx, capacity := s.capacity, progress := s.progress }

/-- The position the decoder sees: the invariant check stands before the per-register tests, so they see the corrected
state (60_exceptions.md R202). -/
def State.decodePosition (s : State) : Position :=
  if s.consistent then s.position
  else if s.cfg.debugBuild then s.position
  else s.selfCorrect.position

/-- An operation whose selection depends on the written value and the state is that operation only where they select it
(30_encoding.md R84). -/
def whenSelected (i : Instr) (s : State) (k : State → Result) : Result :=
  if i.selected s.cfg s.position then k s else .refused .notSelected

/-! ## The step's frame -/

/-- Taking an input off the queue: the output of the step before is gone (00_scope.md R8). -/
def State.beginStep (s : State) (rest : List Input) : State := { s with inputs := rest, rdata := none, events := [] }

/-- A step with no input pending: the block is idle and keeps all state (60_exceptions.md R211; DEDUCED, assumption 14),
but HALTED is never a final state and ends in the fault (10_state.md R30, 60_exceptions.md R200). -/
def idleStep (s : State) : Result :=
  match s.life with
  | .halted => .fault .halted
  | .attached => .next s
  | .detached => .next s

/-! ## Views -/

/-- The byte image of the outbound buffer, word `i` at bytes `4i` to `4i + 3` (20_memory.md R58). -/
def State.outImage (s : State) : List Byte := s.outBuf.flatMap bytesOfWord

/-- The byte image of the reply buffer, word `i` at bytes `2i` and `2i + 1` (20_memory.md R59). -/
def State.replyImage (s : State) : List Byte := s.replyBuf.flatMap bytesOfHalf

/-- What the SCSI transport bridge reads of the block (44_ioc_state_register_file.md R181). -/
structure BridgeView where
  wwn : Identity
  maxTargets : Nat
  maxLuns : Nat
  taggedCommandQueueing : Bool
deriving DecidableEq, Repr

/-- The bridge's read-only view (44_ioc_state_register_file.md R181). -/
def State.bridgeView (s : State) : BridgeView :=
  { wwn := s.wwn, maxTargets := s.maxTargets, maxLuns := s.cfg.maxLuns,
    taggedCommandQueueing := Config.taggedCommandQueueing }

/-- The hooks the SCSI transport calls (44_ioc_state_register_file.md R181). -/
inductive BridgeHook where
  | scatterGatherRetrieval
  | commandCompletion
  | commandCancellation
deriving DecidableEq, Repr

/-- A hook is an unimplemented pass-through: it changes no storage element (44_ioc_state_register_file.md R181). -/
def State.bridgeHook (_hook : BridgeHook) (s : State) : State := s

end Sys2Proof.Machine
end

