-- ==== Sys2Proof/Machine/Decoder.lean ====
section
/-! DEFINITION. The six operations the register decoder answers by itself (40_register_decoder.md R96 to R101). -/

namespace Sys2Proof.Machine

/-- The log class of an access to an offset that is no implemented register (40_register_decoder.md R100, R101). -/
def offsetViolation (c : Cfg) (win : Window) (off : Offset) (acc : Access) : Violation :=
  if c.isUnimplemented win off then .unimplemented acc else .unknownOffset acc

/-- `RD.BADWIDTH` (40_register_decoder.md R96). -/
def execRdBadWidth (win : Window) (off : Offset) (n : Nat) (s : State) : Result :=
  whenAttached s fun s => .next ((s.raiseViolation (.width .read win off n)).answerZeros n)

/-- `WR.BADWIDTH`: the data is dropped (40_register_decoder.md R97). -/
def execWrBadWidth (win : Window) (off : Offset) (n : Nat) (_data : List Byte) (s : State) : Result :=
  whenAttached s fun s => .next (s.raiseViolation (.width .write win off n))

/-- `RD.DIAGWIN` (40_register_decoder.md R98). -/
def execRdDiagWin (off : Offset) (s : State) : Result :=
  whenAttached s fun s => .next ((s.raiseViolation (.diagWindow (.read off))).answer 0)

/-- `WR.DIAGWIN` (40_register_decoder.md R99). -/
def execWrDiagWin (off : Offset) (v : Word) (s : State) : Result :=
  whenAttached s fun s => .next (s.raiseViolation (.diagWindow (.write off v)))

/-- `RD.UNIMPL` (40_register_decoder.md R100). -/
def execRdUnimpl (win : Window) (off : Offset) (s : State) : Result :=
  whenAttached s fun s => .next ((s.raiseViolation (offsetViolation s.cfg win off (.read off))).answer 0)

/-- `WR.UNIMPL` (40_register_decoder.md R101). -/
def execWrUnimpl (win : Window) (off : Offset) (v : Word) (s : State) : Result :=
  whenAttached s fun s => .next (s.raiseViolation (offsetViolation s.cfg win off (.write off v)))

end Sys2Proof.Machine
end

