-- ==== Sys2Proof/Machine/Diagnostic.lean ====
section
/-! DEFINITION. The Write-Sequence and Host Diagnostic registers (43_diagnostic_unlock.md R156 to R161). -/

namespace Sys2Proof.Machine

/-- A write-sequence write: its gates, then its effect. -/
def wrSeqWrite (i : Instr) (s : State) (effect : State → State) : Result :=
  whenAttached s fun s => whenSelected i s fun s => .next (effect s)

/-- `RD.WRSEQ` (43_diagnostic_unlock.md R159). -/
def execRdWrSeq (_win : Window) (s : State) : Result :=
  whenAttached s fun s => .next ((s.raiseViolation (.writeOnlyRead s.cfg.offWrSeq)).answer 0)

/-- `WR.WRSEQ.FLUSH` (43_diagnostic_unlock.md R156). -/
def execWrWrSeqFlush (win : Window) (v : Word) (s : State) : Result :=
  wrSeqWrite (.wrWrSeqFlush win v) s fun s => { s with progress := 0, diag := 0 }

/-- Advancing the key counter; the sixth key opens the gate (43_diagnostic_unlock.md R157). -/
def State.advanceKey (s : State) : State :=
  let t := { s with progress := s.progress + 1 }
  if t.progress = 6 then { t with diag := t.diag ||| t.cfg.diagWe } else t

/-- `WR.WRSEQ.MATCH` (43_diagnostic_unlock.md R157). -/
def execWrWrSeqMatch (win : Window) (v : Word) (s : State) : Result :=
  wrSeqWrite (.wrWrSeqMatch win v) s State.advanceKey

/-- `WR.WRSEQ.MISMATCH` (43_diagnostic_unlock.md R158). -/
def execWrWrSeqMismatch (win : Window) (v : Word) (s : State) : Result :=
  wrSeqWrite (.wrWrSeqMismatch win v) s fun s =>
    { s.raiseViolation (.key (s.cfg.key v) s.progress) with progress := 0, diag := s.diag &&& ~~~s.cfg.diagWe }

/-- `RD.HOSTDIAG` (43_diagnostic_unlock.md R160). -/
def execRdHostDiag (_win : Window) (s : State) : Result :=
  whenAttached s fun s => .next (s.answer s.diag)

/-- The gate is open: `DIAG_WE` is set (60_exceptions.md R206). -/
def State.unlocked (s : State) : Bool := hasBit s.diag s.cfg.diagWe

/-- `WR.HOSTDIAG`: honoured only while unlocked and with the reset-adapter bit written (43_diagnostic_unlock.md R161). -/
def execWrHostDiag (_win : Window) (v : Word) (s : State) : Result :=
  whenAttached s fun s =>
    .next (if s.unlocked then (if hasBit v s.cfg.diagReset then s.diagResetNow else s) else s)

end Sys2Proof.Machine
end

