-- ==== Sys2Proof/Machine/Doorbell.lean ====
section
/-! DEFINITION. The doorbell read and the six doorbell writes (41_doorbell_handshake.md R116 to R125). `win` has no
effect: both windows reach the same storage (20_memory.md R52). -/

namespace Sys2Proof.Machine

/-- The reply word at the read index, `x[REPLYBUF][x[READIDX]]` (41_doorbell_handshake.md R125; beyond the buffer:
assumption 9). -/
def State.replyWord (s : State) : Half :=
  match s.replyBuf[s.readIdx]? with
  | some w => w
  | none => Config.replyWordBeyondBuffer s.readIdx

/-- A doorbell read (41_doorbell_handshake.md R125, 30_encoding.md R77). -/
def State.readDoorbell (s : State) : State :=
  match s.dbState with
  | .none => s.answer (s.cfg.iocCode s.opState)
  | .write => s.answer (s.cfg.usedFlag .write)
  | .read =>
    if s.readIdx < s.replyLen then
      { s with readIdx := s.readIdx + 1 }.answer (s.cfg.usedFlag .read ||| replyField s.replyWord)
    else s.answer (s.cfg.usedFlag .read)

/-- `RD.DOORBELL` (41_doorbell_handshake.md R125). -/
def execRdDoorbell (_win : Window) (s : State) : Result :=
  whenAttached s fun s => withStateCheck s fun s => .next s.readDoorbell

/-- A doorbell write: its gates, in the order of 60_exceptions.md R202, then its effect. -/
def doorbellWrite (i : Instr) (s : State) (effect : State → State) : Result :=
  whenAttached s fun s => withStateCheck s fun s => whenSelected i s fun s => .next (effect s)

/-- `WR.DOORBELL.MUR` (41_doorbell_handshake.md R117). -/
def execWrDoorbellMur (win : Window) (v : Word) (s : State) : Result :=
  doorbellWrite (.wrDoorbellMur win v) s State.softReset

/-- Starting a handshake (41_doorbell_handshake.md R118). -/
def State.startHandshake (s : State) (v : Word) : State :=
  { s with dbState := .write, capacity := s.cfg.add v, writeIdx := 0, outBuf := [] }.raiseDoorbellInterrupt

/-- `WR.DOORBELL.HANDSHAKE` (41_doorbell_handshake.md R118). -/
def execWrDoorbellHandshake (win : Window) (v : Word) (s : State) : Result :=
  doorbellWrite (.wrDoorbellHandshake win v) s fun s => s.startHandshake v

/-- Accepting one message word (41_doorbell_handshake.md R119). -/
def State.acceptWord (s : State) (v : Word) : State :=
  let t := { s with outBuf := s.outBuf ++ [v], writeIdx := s.writeIdx + 1 }
  if t.writeIdx = t.capacity then t.msgComplete else t

/-- `WR.DOORBELL.DATA` (41_doorbell_handshake.md R119). -/
def execWrDoorbellData (win : Window) (v : Word) (s : State) : Result :=
  doorbellWrite (.wrDoorbellData win v) s fun s => s.acceptWord v

/-- `WR.DOORBELL.OVERRUN` (41_doorbell_handshake.md R122). -/
def execWrDoorbellOverrun (win : Window) (v : Word) (s : State) : Result :=
  doorbellWrite (.wrDoorbellOverrun win v) s fun s =>
    { s.raiseViolation (.dbIndex v s.writeIdx s.capacity) with dbState := .none, writeIdx := 0 }

/-- `WR.DOORBELL.OTHERFN` (41_doorbell_handshake.md R123). -/
def execWrDoorbellOtherFn (win : Window) (v : Word) (s : State) : Result :=
  doorbellWrite (.wrDoorbellOtherFn win v) s fun s => s.raiseViolation (.dbFunction v)

/-- `WR.DOORBELL.INREAD` (41_doorbell_handshake.md R124). -/
def execWrDoorbellInRead (win : Window) (v : Word) (s : State) : Result :=
  doorbellWrite (.wrDoorbellInRead win v) s fun s => s.raiseViolation (.dbWriteInRead v)

end Sys2Proof.Machine
end

