-- ==== Sys2Proof/Machine/Fabric.lean ====
section
/-! DEFINITION. The three fabric events: attach, hard reset, detach (70_reset_and_hazards.md R226 to R228). -/

namespace Sys2Proof.Machine

/-- `Attach()` (70_reset_and_hazards.md R227). -/
def State.attachNow (s : State) : State :=
  let fresh := s.undefineElements
  let known := { fresh with wwn := s.cfg.identity, msixInUse := s.cfg.usesMsix, irqLine := false, intStatus := 0 }
  { known.hardReset with life := .attached }

/-- `EV.ATTACH`: only while DETACHED (70_reset_and_hazards.md R227). -/
def execEvAttach (s : State) : Result :=
  match s.life with
  | .detached => .next s.attachNow
  | .attached => .refused .alreadyAttached
  | .halted => .fault .halted

/-- `EV.HARDRESET` (70_reset_and_hazards.md R226). -/
def execEvHardReset (s : State) : Result := whenAttached s fun s => .next s.hardReset

/-- Releasing the line: in legacy mode it is driven low (70_reset_and_hazards.md R228). -/
def State.releaseLine (s : State) : State :=
  if s.msixInUse then s else { s with irqLine := false }.emit (.irqLine false)

/-- Detach: the line is released, the object destroyed, every element undefined (70_reset_and_hazards.md R228). -/
def State.detachNow (s : State) : State := { s.releaseLine.undefineElements with life := .detached }

/-- `EV.DETACH`, while ATTACHED (70_reset_and_hazards.md R228). While HALTED no input has a step, the detach included
(00_scope.md R7, 10_state.md R30, 60_exceptions.md R200, decision D30; R228 names HALTED as a trigger too: DEDUCED,
assumption 10). -/
def execEvDetach (s : State) : Result := whenAttached s fun s => .next s.detachNow

end Sys2Proof.Machine
end

