-- ==== Sys2Proof/Machine/Interrupt.lean ====
section
/-! DEFINITION. The Interrupt Status and Interrupt Mask registers (42_interrupt_arbiter.md R143 to R146). -/

namespace Sys2Proof.Machine

/-- `RD.INTSTATUS` (42_interrupt_arbiter.md R143). -/
def execRdIntStatus (_win : Window) (s : State) : Result :=
  whenAttached s fun s => .next (s.answer s.intStatus)

/-- The acknowledge, before its `IrqEval()` (42_interrupt_arbiter.md R144, 60_exceptions.md R204). -/
def State.acknowledge (s : State) : State :=
  match s.dbState with
  | .none => s.clearDoorbellStatus
  | .write => s.clearDoorbellStatus
  | .read => if s.readIdx = s.replyLen then { s with dbState := .none }.clearDoorbellStatus else s

/-- `WR.INTSTATUS`: the written value is ignored (42_interrupt_arbiter.md R144). -/
def execWrIntStatus (_win : Window) (_v : Word) (s : State) : Result :=
  whenAttached s fun s => withStateCheck s fun s => .next s.acknowledge.irqEval

/-- `RD.INTMASK` (42_interrupt_arbiter.md R145). -/
def execRdIntMask (_win : Window) (s : State) : Result :=
  whenAttached s fun s => .next (s.answer s.intMask)

/-- `WR.INTMASK` (42_interrupt_arbiter.md R146). -/
def execWrIntMask (_win : Window) (v : Word) (s : State) : Result :=
  whenAttached s fun s => .next { s with intMask := v &&& s.cfg.himWritable }.irqEval

end Sys2Proof.Machine
end

