-- ==== Sys2Proof/Machine/RegisterFile.lean ====
section
/-! DEFINITION. The Host-Control-Block Size register (44_ioc_state_register_file.md R175, R176). -/

namespace Sys2Proof.Machine

/-- `RD.HCBSIZE` (44_ioc_state_register_file.md R175). -/
def execRdHcbSize (_win : Window) (s : State) : Result :=
  whenAttached s fun s => .next (s.answer s.hcbSize)

/-- `WR.HCBSIZE` (44_ioc_state_register_file.md R176). -/
def execWrHcbSize (_win : Window) (v : Word) (s : State) : Result :=
  whenAttached s fun s => .next { s with hcbSize := v }

end Sys2Proof.Machine
end

