-- ==== Sys2Proof/Machine/Dispatch.lean ====
section
/-! DEFINITION. One meaning per operation (30_encoding.md R84). -/

namespace Sys2Proof.Machine

def exec (i : Instr) (s : State) : Host.Outcome State Fault Refusal :=
  match i with
  | .rdDoorbell win => Sys2Proof.Machine.execRdDoorbell win s
  | .wrDoorbellMur win v => Sys2Proof.Machine.execWrDoorbellMur win v s
  | .wrDoorbellData win v => Sys2Proof.Machine.execWrDoorbellData win v s
  | .wrDoorbellOverrun win v => Sys2Proof.Machine.execWrDoorbellOverrun win v s
  | .wrDoorbellHandshake win v => Sys2Proof.Machine.execWrDoorbellHandshake win v s
  | .wrDoorbellOtherFn win v => Sys2Proof.Machine.execWrDoorbellOtherFn win v s
  | .wrDoorbellInRead win v => Sys2Proof.Machine.execWrDoorbellInRead win v s
  | .rdWrSeq win => Sys2Proof.Machine.execRdWrSeq win s
  | .wrWrSeqFlush win v => Sys2Proof.Machine.execWrWrSeqFlush win v s
  | .wrWrSeqMatch win v => Sys2Proof.Machine.execWrWrSeqMatch win v s
  | .wrWrSeqMismatch win v => Sys2Proof.Machine.execWrWrSeqMismatch win v s
  | .rdHostDiag win => Sys2Proof.Machine.execRdHostDiag win s
  | .wrHostDiag win v => Sys2Proof.Machine.execWrHostDiag win v s
  | .rdIntStatus win => Sys2Proof.Machine.execRdIntStatus win s
  | .wrIntStatus win v => Sys2Proof.Machine.execWrIntStatus win v s
  | .rdIntMask win => Sys2Proof.Machine.execRdIntMask win s
  | .wrIntMask win v => Sys2Proof.Machine.execWrIntMask win v s
  | .rdHcbSize win => Sys2Proof.Machine.execRdHcbSize win s
  | .wrHcbSize win v => Sys2Proof.Machine.execWrHcbSize win v s
  | .rdDiagWin off => Sys2Proof.Machine.execRdDiagWin off s
  | .wrDiagWin off v => Sys2Proof.Machine.execWrDiagWin off v s
  | .rdUnimpl win off => Sys2Proof.Machine.execRdUnimpl win off s
  | .wrUnimpl win off v => Sys2Proof.Machine.execWrUnimpl win off v s
  | .rdBadWidth win off n => Sys2Proof.Machine.execRdBadWidth win off n s
  | .wrBadWidth win off n data => Sys2Proof.Machine.execWrBadWidth win off n data s
  | .evAttach => Sys2Proof.Machine.execEvAttach s
  | .evHardReset => Sys2Proof.Machine.execEvHardReset s
  | .evDetach => Sys2Proof.Machine.execEvDetach s

end Sys2Proof.Machine
end

