-- ==== Sys2Proof/Machine/Step.lean ====
section
/-! DEFINITION. The step function: one delivered input is one step (00_scope.md R8). -/

namespace Sys2Proof.Machine

/-- One step: the next pending input is decoded at the block's position and its operation runs; with no input pending the
block is idle. -/
def step (s : State) : Host.Outcome State Fault Refusal :=
  match s.inputs with
  | [] => idleStep s
  | inp :: rest =>
    match decode s.cfg s.decodePosition inp with
    | .ok i => exec i (s.beginStep rest)
    | .error .dataLength => .refused .malformedInput

/-- The state with an opcode-table word as the next input the fabric delivers (assumption 4). -/
def State.withFetchWord (s : State) (nbits w : Nat) : State := { s with inputs := inputOfNumber nbits w :: s.inputs }

end Sys2Proof.Machine
end

