-- ==== Sys2Proof/Machine/Program.lean ====
section
/-! DEFINITION. The spec's program lines and pseudo-operations, as the inputs they stand for (30_encoding.md R85, R86). -/

namespace Sys2Proof.Program

/-- `RD <reg>`. -/
def rd (c : Cfg) (r : Reg) : Input := encodeRead c .mem r

/-- `WR <reg>, <value>`. -/
def wr (c : Cfg) (r : Reg) (v : Word) : Input := encodeWrite c .mem r v

/-- `RDn <win>, <off>`. -/
def rdN (n : Nat) (win : Window) (off : Offset) : Input := .transaction (packTx .read win n off) []

/-- `WRn <win>, <off>, <value>`. -/
def wrN (n : Nat) (win : Window) (off : Offset) (v : Nat) : Input :=
  .transaction (packTx .write win n off) (littleEndian n v)

/-- The value of a handshake request for `n` words. -/
def handshakeWord (c : Cfg) (n : Nat) : Word :=
  (c.fnHandshake <<< c.dbFnShift) ||| (BitVec.ofNat 32 n <<< c.dbAddShift)

/-- `HANDSHAKE n`. -/
def handshake (c : Cfg) (n : Nat) : Input := wr c .doorbell (handshakeWord c n)

/-- `MUR`. -/
def mur (c : Cfg) : Input := wr c .doorbell (c.fnMur <<< c.dbFnShift)

/-- `SEND w`. -/
def send (c : Cfg) (w : Word) : Input := wr c .doorbell w

/-- `RECV`. -/
def recv (c : Cfg) : Input := rd c .doorbell

/-- `ACK`. -/
def ack (c : Cfg) : Input := wr c .intStatus 0

/-- `FLUSH`. -/
def flush (c : Cfg) : Input := wr c .wrSeq c.kf

/-- `UNLOCK`: `KEY 1` to `KEY 6`. -/
def unlock (c : Cfg) : List Input := c.keys.toList.map (wr c .wrSeq)

/-- `DIAGRESET`. -/
def diagReset (c : Cfg) : Input := wr c .hostDiag c.diagReset

/-- `SETMASK m`. -/
def setMask (c : Cfg) (m : Word) : Input := wr c .intMask m

end Sys2Proof.Program
end

