-- ==== Sys2Proof/Machine/Table.lean ====
section
/-! DEFINITION. The operation table of 30_encoding.md R71, as data: ordered rows of a match, a mask and the conditions on
data and state, for any configuration. With `CFG_REF` the numbers are those of spec/opcode_table.json. -/

namespace Sys2Proof

/-- The rows of the table that a transaction can match, in its order, then the three events. -/
inductive Op where
  | rdDoorbell
  | wrDoorbellMur
  | wrDoorbellData
  | wrDoorbellOverrun
  | wrDoorbellHandshake
  | wrDoorbellOtherFn
  | wrDoorbellInRead
  | rdWrSeq
  | wrWrSeqFlush
  | wrWrSeqMatch
  | wrWrSeqMismatch
  | rdHostDiag
  | wrHostDiag
  | rdIntStatus
  | wrIntStatus
  | rdIntMask
  | wrIntMask
  | rdHcbSize
  | wrHcbSize
  | rdDiagWin
  | wrDiagWin
  | rdUnimpl
  | wrUnimpl
  | rdBadWidth
  | wrBadWidth
  | evAttach
  | evHardReset
  | evDetach
deriving DecidableEq, Repr

/-- The row an operation belongs to. -/
def Instr.op (i : Instr) : Op :=
  match i with
  | .rdDoorbell _ => .rdDoorbell
  | .wrDoorbellMur _ _ => .wrDoorbellMur
  | .wrDoorbellData _ _ => .wrDoorbellData
  | .wrDoorbellOverrun _ _ => .wrDoorbellOverrun
  | .wrDoorbellHandshake _ _ => .wrDoorbellHandshake
  | .wrDoorbellOtherFn _ _ => .wrDoorbellOtherFn
  | .wrDoorbellInRead _ _ => .wrDoorbellInRead
  | .rdWrSeq _ => .rdWrSeq
  | .wrWrSeqFlush _ _ => .wrWrSeqFlush
  | .wrWrSeqMatch _ _ => .wrWrSeqMatch
  | .wrWrSeqMismatch _ _ => .wrWrSeqMismatch
  | .rdHostDiag _ => .rdHostDiag
  | .wrHostDiag _ _ => .wrHostDiag
  | .rdIntStatus _ => .rdIntStatus
  | .wrIntStatus _ _ => .wrIntStatus
  | .rdIntMask _ => .rdIntMask
  | .wrIntMask _ _ => .wrIntMask
  | .rdHcbSize _ => .rdHcbSize
  | .wrHcbSize _ _ => .wrHcbSize
  | .rdDiagWin _ => .rdDiagWin
  | .wrDiagWin _ _ => .wrDiagWin
  | .rdUnimpl _ _ => .rdUnimpl
  | .wrUnimpl _ _ _ => .wrUnimpl
  | .rdBadWidth _ _ _ => .rdBadWidth
  | .wrBadWidth _ _ _ _ => .wrBadWidth
  | .evAttach => .evAttach
  | .evHardReset => .evHardReset
  | .evDetach => .evDetach

/-- One row of the table: `tx & mask = pattern` (R71). -/
structure Row where
  op : Op
  pattern : BitVec 24
  mask : BitVec 24
deriving DecidableEq, Repr

/-- A row for a register's offset; bit 21 is left out of the mask, so that the row serves `MEM` and `IO` (R71). -/
def registerRow (op : Op) (d : Dir) (off : Offset) : Row :=
  { op := op, pattern := packTx d .mem 4 off, mask := 0xDFFFFF }

/-- The rows a transaction can match, in the table's order. -/
def opcodeRows (c : Cfg) : List Row :=
  [registerRow .rdDoorbell .read c.offDoorbell,
   registerRow .wrDoorbellMur .write c.offDoorbell,
   registerRow .wrDoorbellData .write c.offDoorbell,
   registerRow .wrDoorbellOverrun .write c.offDoorbell,
   registerRow .wrDoorbellHandshake .write c.offDoorbell,
   registerRow .wrDoorbellOtherFn .write c.offDoorbell,
   registerRow .wrDoorbellInRead .write c.offDoorbell,
   registerRow .rdWrSeq .read c.offWrSeq,
   registerRow .wrWrSeqFlush .write c.offWrSeq,
   registerRow .wrWrSeqMatch .write c.offWrSeq,
   registerRow .wrWrSeqMismatch .write c.offWrSeq,
   registerRow .rdHostDiag .read c.offHostDiag,
   registerRow .wrHostDiag .write c.offHostDiag,
   registerRow .rdIntStatus .read c.offIntStatus,
   registerRow .wrIntStatus .write c.offIntStatus,
   registerRow .rdIntMask .read c.offIntMask,
   registerRow .wrIntMask .write c.offIntMask,
   registerRow .rdHcbSize .read c.offHcbSize,
   registerRow .wrHcbSize .write c.offHcbSize,
   { op := .rdDiagWin, pattern := 0x440000, mask := 0xFF0003 },
   { op := .wrDiagWin, pattern := 0xC40000, mask := 0xFF0003 },
   { op := .rdUnimpl, pattern := 0x040000, mask := 0xDF0003 },
   { op := .wrUnimpl, pattern := 0x840000, mask := 0xDF0003 },
   { op := .rdBadWidth, pattern := 0x000000, mask := 0x800000 },
   { op := .wrBadWidth, pattern := 0x800000, mask := 0x800000 }]

/-- The row's `data_cond` and `state_cond`, as the table writes them (R71); true where it has none. -/
def Op.condition (c : Cfg) (p : Position) (v : Word) (op : Op) : Bool :=
  match op with
  | .wrDoorbellMur => c.fn v == c.fnMur
  | .wrDoorbellData => c.fn v != c.fnMur && p.dbState == .write && decide (p.writeIdx < p.capacity)
  | .wrDoorbellOverrun => c.fn v != c.fnMur && p.dbState == .write && decide (p.capacity ≤ p.writeIdx)
  | .wrDoorbellHandshake => c.fn v == c.fnHandshake && p.dbState == .none
  | .wrDoorbellOtherFn => c.fn v != c.fnMur && c.fn v != c.fnHandshake && p.dbState == .none
  | .wrDoorbellInRead => c.fn v != c.fnMur && p.dbState == .read
  | .wrWrSeqFlush => c.key v == c.kf
  | .wrWrSeqMatch => c.key v != c.kf && c.expectedKey p.progress == some (c.key v) && decide (p.progress < 6)
  | .wrWrSeqMismatch =>
    c.key v != c.kf && !(decide (p.progress < 6) && c.expectedKey p.progress == some (c.key v))
  | .rdDoorbell => true
  | .rdWrSeq => true
  | .rdHostDiag => true
  | .wrHostDiag => true
  | .rdIntStatus => true
  | .wrIntStatus => true
  | .rdIntMask => true
  | .wrIntMask => true
  | .rdHcbSize => true
  | .wrHcbSize => true
  | .rdDiagWin => true
  | .wrDiagWin => true
  | .rdUnimpl => true
  | .wrUnimpl => true
  | .rdBadWidth => true
  | .wrBadWidth => true
  | .evAttach => true
  | .evHardReset => true
  | .evDetach => true

/-- The row matches a transaction with written value `v`, at a position (R71). -/
def Row.matchesTx (c : Cfg) (p : Position) (tx : BitVec 24) (v : Word) (r : Row) : Bool :=
  (tx &&& r.mask == r.pattern) && r.op.condition c p v

/-- "The table is ordered; a decoder takes the first row that matches" (R71). -/
def firstMatchingRow (c : Cfg) (p : Position) (tx : BitVec 24) (v : Word) : Option Op :=
  ((opcodeRows c).find? (Row.matchesTx c p tx v)).map Row.op

/-! ## Kinds of inputs and operations that claims name -/

/-- An input is a transaction of 30_encoding.md R70: its data is `n` bytes of a write, or absent from a read. -/
def Input.isTransaction (inp : Input) : Bool :=
  match inp with
  | .transaction tx data =>
    match txDir tx with
    | .read => decide (data.length = 0)
    | .write => decide (data.length = txSize tx)
  | .attach => false
  | .hardReset => false
  | .detach => false

/-- The operation is a read. -/
def Op.isRead (o : Op) : Bool :=
  [.rdDoorbell, .rdWrSeq, .rdHostDiag, .rdIntStatus, .rdIntMask, .rdHcbSize, .rdDiagWin, .rdUnimpl, .rdBadWidth].contains o

/-- The operation is a doorbell write. -/
def Op.isDoorbellWrite (o : Op) : Bool :=
  [.wrDoorbellMur, .wrDoorbellData, .wrDoorbellOverrun, .wrDoorbellHandshake, .wrDoorbellOtherFn,
   .wrDoorbellInRead].contains o

/-- The operation is a write-sequence write. -/
def Op.isWrSeqWrite (o : Op) : Bool := [.wrWrSeqFlush, .wrWrSeqMatch, .wrWrSeqMismatch].contains o

/-- The operation is a fabric event. -/
def Op.isEvent (o : Op) : Bool := [.evAttach, .evHardReset, .evDetach].contains o

/-- The operation starts with the invariant check (41_doorbell_handshake.md R128). -/
def Op.checksState (o : Op) : Bool := o == .rdDoorbell || o.isDoorbellWrite || o == .wrIntStatus

end Sys2Proof
end

