-- ==== Sys2Proof/Safety.lean ====
section
/-! DEFINITION. What counts as a good state and a safe run: the invariants of 10_state.md R31, runs over delivered inputs
and the events of an interrupt evaluation. -/

namespace Sys2Proof.Machine

/-- The invariants between steps of an attached block: 10_state.md R31 items 1 to 9 and the bounds and constancies that
R15, R18, R21, R26 to R28 state (item 10 is no condition on a state). -/
structure AttachedInv (s : State) : Prop where
  writeIdx_le : s.writeIdx ≤ s.capacity
  readIdx_le : s.readIdx ≤ s.replyLen
  capacity_le : s.capacity ≤ s.cfg.maxCount
  outBuf_length : s.dbState = .write → s.outBuf.length = s.writeIdx
  write_open : s.dbState = .write → s.writeIdx < s.capacity ∨ s.capacity = 0
  read_status : s.dbState = .read → hasBit s.intStatus s.cfg.hisDoorbell = true
  replyLen_eq : s.replyLen = s.replyBuf.length
  replyLen_le : s.replyLen ≤ s.cfg.replyMax
  progress_le : s.progress ≤ 6
  unlocked_iff : s.unlocked = true ↔ s.progress = 6
  diag_only : s.diag &&& ~~~s.cfg.diagWe = 0
  mask_only : s.intMask &&& ~~~s.cfg.himWritable = 0
  status_only : s.intStatus &&& ~~~s.cfg.hisDoorbell = 0
  line_level : s.irqLine = (!s.msixInUse && s.asserted)
  opState_ready : s.opState = .ready
  limits : s.maxTargets = s.cfg.maxTargetsDefault ∧ s.maxBuses = s.cfg.maxBusesDefault
  identity : s.wwn = s.cfg.identity
  delivery : s.msixInUse = s.cfg.usesMsix

/-- The invariant of the machine: it never halts, and while attached the block's invariants hold (10_state.md R31,
60_exceptions.md R200). -/
def Inv (s : State) : Prop := s.life ≠ .halted ∧ (s.life = .attached → AttachedInv s)

/-- A run over the given inputs, delivered in order (20_memory.md R62). -/
def deliver (s : State) (inps : List Input) : Result :=
  Host.Core.run Sys2Proof.core inps.length { s with inputs := inps }

/-- The key an input writes: that of a 4-byte write to the Write-Sequence register, through either window that holds it
(43_diagnostic_unlock.md section 2, 30_encoding.md R78). -/
def keyWritten (c : Cfg) (inp : Input) : Option Word :=
  match inp with
  | .transaction tx data =>
    if txDir tx = .write ∧ (txWindow tx).holdsRegisters = true ∧ txSize tx = 4 ∧ txOffset tx = c.offWrSeq then
      some (c.key (wordOfBytes data))
    else none
  | .attach => none
  | .hardReset => none
  | .detach => none

/-- The keys that a sequence of inputs writes, in order. -/
def keysWritten (c : Cfg) (inps : List Input) : List Word := inps.filterMap (keyWritten c)

/-- The number of violations in an event list (60_exceptions.md R202). -/
def violationCount (es : List Event) : Nat :=
  es.countP fun e => match e with
    | .violation _ => true
    | _ => false

/-- An event of the interrupt's delivery (42_interrupt_arbiter.md R141). -/
def Event.isInterrupt (e : Event) : Bool :=
  match e with
  | .irqLine _ => true
  | .msixNotify _ => true
  | .transportReset => false
  | .violation _ => false
  | .fatal _ => false

/-- The events one `IrqEval()` emits for a signal level (42_interrupt_arbiter.md R141). -/
def irqEvents (msix level : Bool) : List Event :=
  if msix then (if level then [.msixNotify 0] else []) else [.irqLine level]

/-- The events of `SoftReset()`: the evaluation under the reset mask, the transport's reset, the evaluation under the
restored mask, which finds the status clear (70_reset_and_hazards.md R225). -/
def softResetEvents (c : Cfg) (msix : Bool) (status : Word) : List Event :=
  irqEvents msix (c.asserted status c.resetMask) ++ [.transportReset] ++ irqEvents msix false

/-- A change of the state carried through an outcome: the next state is changed, a stop is kept. -/
def mapNext (f : State → State) (r : Result) : Result :=
  match r with
  | .next s => .next (f s)
  | .fault e => .fault e
  | .refused e => .refused e

/-- The same state with another message handler plugged in (00_scope.md R4). -/
def State.withHandler (s : State) (h : Handler) : State := { s with cfg := { s.cfg with handler := h } }

/-- The level the legacy line has after an `IrqEval()` (42_interrupt_arbiter.md R141). -/
def lineAfter (msix level before : Bool) : Bool := if msix then before else level

end Sys2Proof.Machine
end

