-- ==== Sys2Proof/Certificates/Slice0/Obligations.lean ====
section
/-! DEFINITION. The statements about the machine, for the provers. A statement of an operation's effect is an equation for
the whole next state, so that it says the result and the frame at once. -/

open Sys2Proof Sys2Proof.Machine

/-! ## Decoding and the step -/

/-- Words written out in 95_test_vectors.md decode, under `CFG_REF` and right after reset, to the operations the rows
name: P1 lines 1 to 4, DEC2, DEC9, DEC10, DEC13, DEC19, DG2, P2 line 17, P3 line 4. -/
def Obligations.SpecWordsDecode : Prop :=
  decode cfgRef Position.start (.transaction 0x840034 [0, 0, 0, 0]) = .ok (.wrIntMask .mem 0) ∧
  decode cfgRef Position.start (.transaction 0x040000 []) = .ok (.rdDoorbell .mem) ∧
  decode cfgRef Position.start (.transaction 0x840000 [0, 0, 0x02, 0x42]) =
    .ok (.wrDoorbellHandshake .mem 0x42020000) ∧
  decode cfgRef Position.start (.transaction 0x010030 []) = .ok (.rdBadWidth .mem 0x30 1) ∧
  decode cfgRef Position.start (.transaction 0x420010 []) = .ok (.rdBadWidth .diagWin 0x10 2) ∧
  decode cfgRef Position.start (.transaction 0x440000 []) = .ok (.rdDiagWin 0) ∧
  decode cfgRef Position.start (.transaction 0x0400C0 []) = .ok (.rdUnimpl .mem 0xC0) ∧
  decode cfgRef Position.start (.transaction 0xA40074 [0xAA, 0, 0, 0]) = .ok (.wrHcbSize .io 0xAA) ∧
  decode cfgRef Position.start (.transaction 0x840004 [0xFF, 0xFF, 0xFF, 0xFF]) =
    .ok (.wrWrSeqMatch .mem 0xFFFFFFFF) ∧
  decode cfgRef Position.start (.transaction 0x840008 [4, 0, 0, 0]) = .ok (.wrHostDiag .mem 4) ∧
  decode cfgRef Position.start (.transaction 0x880030 [0, 0, 0, 0, 0, 0, 0, 0]) =
    .ok (.wrBadWidth .mem 0x30 8 [0, 0, 0, 0, 0, 0, 0, 0])

/-- A step runs the operation the next input decodes to, on the state with that input taken off and the last output
dropped (R8, R73; the queue is the model's own, assumption 4). The decoder sees the corrected position where the invariant
check is to correct the state (assumption 18, DEDUCED from R202). With no input pending a block that is not halted keeps all
state and a halted one ends in the fault: the model's reading of R211 and R200 (assumption 14, DEDUCED; R8 has no such
step). -/
def Obligations.StepRunsDecodedOperation : Prop :=
  (∀ (s : State) (inp : Input) (rest : List Input) (i : Instr),
    s.inputs = inp :: rest → decode s.cfg s.decodePosition inp = .ok i →
    step s = exec i { s with inputs := rest, rdata := none, events := [] }) ∧
  (∀ s : State, s.inputs = [] → s.life ≠ .halted → step s = .next s) ∧
  ∀ s : State, s.inputs = [] → s.life = .halted → step s = .fault .halted

/-- Decoding an encoded operation that is well formed and selected gives it back, for every configuration that meets the
decidable items of R5. -/
def Obligations.DecodeInvertsEncode : Prop :=
  ∀ (c : Cfg) (p : Position) (i : Instr),
    c.wf = true → i.wellFormed c = true → i.selected c p = true → decode c p (encode c i) = .ok i

/-- Whatever decodes, decodes to a well-formed operation that the data and the position select, and encoding it gives the
input back: no bit of a transaction is dropped. -/
def Obligations.EncodeInvertsDecode : Prop :=
  ∀ (c : Cfg) (p : Position) (inp : Input) (i : Instr),
    decode c p inp = .ok i → encode c i = inp ∧ i.wellFormed c = true ∧ i.selected c p = true

/-- The decoder of R73 and R95 selects the first matching row of the ordered table of R71. -/
def Obligations.DecodeTakesFirstMatchingRow : Prop :=
  ∀ (c : Cfg) (p : Position) (tx : BitVec 24) (data : List Byte) (i : Instr),
    c.wf = true → decode c p (.transaction tx data) = .ok i →
    firstMatchingRow c p tx (wordOfBytes data) = some i.op

/-- Exactly one operation is selected for every transaction (R95). -/
def Obligations.TransactionSelectsExactlyOneOperation : Prop :=
  ∀ (c : Cfg) (p : Position) (inp : Input), c.wf = true → inp.isTransaction = true →
    ∃ i, decode c p inp = .ok i ∧
      ∀ j : Instr, j.wellFormed c = true → j.selected c p = true → encode c j = inp → j = i

/-- An access that is not 4 bytes wide and 4-byte aligned changes no storage element, in any window and at any offset: a
read returns 0, a write changes nothing, and `PV_WIDTH` is logged (R55). -/
def Obligations.BadWidthAccessOnlyLogs : Prop :=
  ∀ (s : State) (tx : BitVec 24) (data : List Byte) (rest : List Input),
    s.life = .attached → s.inputs = .transaction tx data :: rest →
    (Input.transaction tx data).isTransaction = true →
    (txSize tx ≠ 4 ∨ (txOffset tx).toNat % 4 ≠ 0) →
    step s = .next { s with
      inputs := rest
      rdata := if txDir tx = .read then some (List.replicate (txSize tx) 0) else none
      events := [.violation (.width (txDir tx) (txWindow tx) (txOffset tx) (txSize tx))] }

/-- The doorbell write decode of R116: the reset test first, then the state. -/
def Obligations.DoorbellWriteDecodesInOrder : Prop :=
  ∀ (c : Cfg) (p : Position) (win : Window) (v : Word), c.wf = true → (win = .mem ∨ win = .io) →
    (c.fn v = c.fnMur → decode c p (encodeWrite c win .doorbell v) = .ok (.wrDoorbellMur win v)) ∧
    (c.fn v ≠ c.fnMur →
      (p.dbState = .write → p.writeIdx < p.capacity →
        decode c p (encodeWrite c win .doorbell v) = .ok (.wrDoorbellData win v)) ∧
      (p.dbState = .write → ¬ p.writeIdx < p.capacity →
        decode c p (encodeWrite c win .doorbell v) = .ok (.wrDoorbellOverrun win v)) ∧
      (p.dbState = .none → c.fn v = c.fnHandshake →
        decode c p (encodeWrite c win .doorbell v) = .ok (.wrDoorbellHandshake win v)) ∧
      (p.dbState = .none → c.fn v ≠ c.fnHandshake →
        decode c p (encodeWrite c win .doorbell v) = .ok (.wrDoorbellOtherFn win v)) ∧
      (p.dbState = .read → decode c p (encodeWrite c win .doorbell v) = .ok (.wrDoorbellInRead win v)))

/-- The model's choice, assumption 4: an input that is no transaction of R70 is refused by name. -/
def Obligations.MalformedInputRefused : Prop :=
  ∀ (s : State) (tx : BitVec 24) (data : List Byte) (rest : List Input),
    s.inputs = .transaction tx data :: rest → (Input.transaction tx data).isTransaction = false →
    step s = .refused .malformedInput

/-! ## Invariants -/

/-- Every step keeps the invariants of R31, under a well-formed configuration. -/
def Obligations.StepKeepsInvariant : Prop :=
  ∀ s t : State, s.cfg.WF → Inv s → step s = .next t → Inv t

/-- The reset state has the invariants, under a well-formed configuration. Its configuration is `CFG_REF` by the model's
choice (assumption 5), and that `CFG_REF` meets item 7 of R5 rests on the model's reading of that item, a bound on replies
to messages the block can hand over (assumption 13, DEDUCED). -/
def Obligations.ResetSatisfiesInvariant : Prop :=
  State.reset.cfg.WF ∧ Inv State.reset

/-- No step changes the configuration (R44). -/
def Obligations.StepKeepsConfiguration : Prop :=
  ∀ s t : State, step s = .next t → t.cfg = s.cfg

/-- From a state that has the invariants no input yields `Fatal`, whatever `DEBUG_BUILD` is. -/
def Obligations.NoInputYieldsFatal : Prop :=
  ∀ s t : State, Inv s → s.inputs ≠ [] → step s = .next t → Event.fatal .state ∉ t.events ∧ t.life ≠ .halted

/-- While attached, every transaction, however malformed its address and width, and every hard reset and detach gets a
step (R83, R104), and none but a detach ends the life of a block that passes the invariant check or is no debug build. -/
def Obligations.AttachedBlockAlwaysSteps : Prop :=
  ∀ (s : State) (inp : Input) (rest : List Input), s.life = .attached → s.inputs = inp :: rest →
    (inp.isTransaction = true ∨ inp = .hardReset ∨ inp = .detach) →
    ∃ t, step s = .next t ∧
      (s.consistent = true ∨ s.cfg.debugBuild = false → inp ≠ .detach → t.life = .attached)

/-! ## The doorbell -/

/-- `RD.DOORBELL` (R125), in its four cases. Where the read index is below the reply length and beyond the reply buffer,
which no run reaches, the answer is some word and the index still advances: the model's choice (assumption 9). -/
def Obligations.DoorbellReadEffect : Prop :=
  ∀ (s : State) (win : Window), s.life = .attached → s.consistent = true →
    (s.dbState = .none →
      exec (.rdDoorbell win) s = .next { s with rdata := some (bytesOfWord (s.cfg.iocCode s.opState)) }) ∧
    (s.dbState = .write →
      exec (.rdDoorbell win) s = .next { s with rdata := some (bytesOfWord s.cfg.dbUsed) }) ∧
    (s.dbState = .read → s.readIdx < s.replyLen →
      (∀ w, s.replyBuf[s.readIdx]? = some w →
        exec (.rdDoorbell win) s = .next { s with
          readIdx := s.readIdx + 1
          rdata := some (bytesOfWord (s.cfg.dbUsed ||| w.setWidth 32)) }) ∧
      ∃ w : Half, exec (.rdDoorbell win) s = .next { s with
          readIdx := s.readIdx + 1
          rdata := some (bytesOfWord (s.cfg.dbUsed ||| w.setWidth 32)) }) ∧
    (s.dbState = .read → ¬ s.readIdx < s.replyLen →
      exec (.rdDoorbell win) s = .next { s with rdata := some (bytesOfWord s.cfg.dbUsed) })

/-- `WR.DOORBELL.MUR` is `SoftReset()` (R117, R225), in every doorbell state. -/
def Obligations.MessageUnitResetEffect : Prop :=
  ∀ (s : State) (win : Window) (v : Word), s.life = .attached → s.consistent = true → s.cfg.fn v = s.cfg.fnMur →
    exec (.wrDoorbellMur win v) s = .next { s with
      opState := .ready, intStatus := 0, dbState := .none, capacity := 0, writeIdx := 0, outBuf := []
      replyBuf := [], replyLen := 0, readIdx := 0
      irqLine := if s.msixInUse then s.irqLine else false
      events := s.events ++ softResetEvents s.cfg s.msixInUse s.intStatus }

/-- `WR.DOORBELL.HANDSHAKE` (R118). -/
def Obligations.HandshakeStartEffect : Prop :=
  ∀ (s : State) (win : Window) (v : Word), s.life = .attached → s.consistent = true →
    s.dbState = .none → s.cfg.fn v = s.cfg.fnHandshake → s.cfg.fnHandshake ≠ s.cfg.fnMur →
    exec (.wrDoorbellHandshake win v) s = .next { s with
      dbState := .write, capacity := s.cfg.add v, writeIdx := 0, outBuf := []
      intStatus := s.intStatus ||| s.cfg.hisDoorbell
      irqLine := lineAfter s.msixInUse (s.cfg.asserted (s.intStatus ||| s.cfg.hisDoorbell) s.intMask) s.irqLine
      events := s.events ++
        irqEvents s.msixInUse (s.cfg.asserted (s.intStatus ||| s.cfg.hisDoorbell) s.intMask) }

/-- `WR.DOORBELL.DATA` before the last word: the word is appended unchanged and nothing else happens (R119, R76). -/
def Obligations.DataWordAppended : Prop :=
  ∀ (s : State) (win : Window) (v : Word), s.life = .attached → s.consistent = true →
    s.dbState = .write → s.cfg.fn v ≠ s.cfg.fnMur → s.writeIdx + 1 < s.capacity →
    exec (.wrDoorbellData win v) s = .next { s with outBuf := s.outBuf ++ [v], writeIdx := s.writeIdx + 1 }

/-- `WR.DOORBELL.DATA` with the last word runs `MsgComplete()` on the whole message (R119, R120): a reply enters READ and
raises the interrupt, no reply returns to NONE. -/
def Obligations.LastWordCompletesMessage : Prop :=
  ∀ (s : State) (win : Window) (v : Word), s.life = .attached → s.consistent = true →
    s.dbState = .write → s.cfg.fn v ≠ s.cfg.fnMur → s.writeIdx + 1 = s.capacity →
    (∀ ws, s.cfg.handler.answer (s.outBuf ++ [v]) = .words ws →
      exec (.wrDoorbellData win v) s = .next { s with
        outBuf := s.outBuf ++ [v], writeIdx := s.writeIdx + 1
        replyBuf := ws, replyLen := ws.length, readIdx := 0, dbState := .read
        intStatus := s.intStatus ||| s.cfg.hisDoorbell
        irqLine := lineAfter s.msixInUse (s.cfg.asserted (s.intStatus ||| s.cfg.hisDoorbell) s.intMask) s.irqLine
        events := s.events ++
          irqEvents s.msixInUse (s.cfg.asserted (s.intStatus ||| s.cfg.hisDoorbell) s.intMask) }) ∧
    (s.cfg.handler.answer (s.outBuf ++ [v]) = .noReply →
      exec (.wrDoorbellData win v) s = .next { s with
        outBuf := s.outBuf ++ [v], writeIdx := s.writeIdx + 1, dbState := .none })

/-- `WR.DOORBELL.OVERRUN` (R122). -/
def Obligations.OverrunReturnsToNone : Prop :=
  ∀ (s : State) (win : Window) (v : Word), s.life = .attached → s.consistent = true →
    s.dbState = .write → s.cfg.fn v ≠ s.cfg.fnMur → s.capacity ≤ s.writeIdx →
    exec (.wrDoorbellOverrun win v) s = .next { s with
      dbState := .none, writeIdx := 0
      events := s.events ++ [.violation (.dbIndex v s.writeIdx s.capacity)] }

/-- `WR.DOORBELL.OTHERFN` and `WR.DOORBELL.INREAD` change no storage element and are logged (R123, R124). -/
def Obligations.IgnoredDoorbellWritesOnlyLog : Prop :=
  ∀ (s : State) (win : Window) (v : Word), s.life = .attached → s.consistent = true → s.cfg.fn v ≠ s.cfg.fnMur →
    (s.dbState = .none → s.cfg.fn v ≠ s.cfg.fnHandshake →
      exec (.wrDoorbellOtherFn win v) s = .next { s with events := s.events ++ [.violation (.dbFunction v)] }) ∧
    (s.dbState = .read →
      exec (.wrDoorbellInRead win v) s = .next { s with events := s.events ++ [.violation (.dbWriteInRead v)] })

/-- The invariant check (R128, R200): in a state that fails it, a doorbell read, a doorbell write and an interrupt status
write halt a debug build, and otherwise are logged, force NONE, clear the indices and go on from the corrected state,
which passes the check. That the halt is itself a next state, with no answer, is the model's reading of R200 (assumption
10, DEDUCED), and what IV_STATE records is the model's choice (assumption 19). -/
def Obligations.FailedStateCheckHaltsOrCorrects : Prop :=
  ∀ (s : State) (i : Instr), s.life = .attached → i.op.checksState = true →
    ¬ (s.writeIdx ≤ s.capacity ∧ s.readIdx ≤ s.replyLen ∧
        (s.dbState = .read → s.intStatus &&& s.cfg.hisDoorbell ≠ 0)) →
    (s.cfg.debugBuild = true →
      exec i s = .next { s with life := .halted, rdata := none, events := s.events ++ [.fatal .state] }) ∧
    (s.cfg.debugBuild = false →
      s.selfCorrect = { s with
        dbState := .none, writeIdx := 0, readIdx := 0, capacity := 0, replyLen := 0
        events := s.events ++ [.violation (.state s.snapshot)] } ∧
      s.selfCorrect.consistent = true ∧ exec i s = exec i s.selfCorrect)

/-- The model's choice, assumption 7: `exec` refuses by name a doorbell or write-sequence write that the value and the
state do not select. -/
def Obligations.UnselectedWritesRefused : Prop :=
  ∀ (s : State) (i : Instr), s.life = .attached →
    (i.op.isDoorbellWrite = true ∧ s.consistent = true ∨ i.op.isWrSeqWrite = true) →
    i.selected s.cfg s.position = false → exec i s = .refused .notSelected

/-! ## The interrupt arbiter -/

/-- The signal is asserted exactly when some status bit is set whose mask bit is clear and which is not the reserved one;
all 32 bits take part (R140). -/
def Obligations.SignalIsUnmaskedStatusBit : Prop :=
  ∀ (c : Cfg) (status mask : Word),
    c.asserted status mask = true ↔
    ∃ k, k < 32 ∧ status.getLsbD k = true ∧ mask.getLsbD k = false ∧ c.hisReservedDb.getLsbD k = false

/-- `IrqEval()` (R141): MSI-X mode sends vector 0 at every evaluation that is true and nothing else; legacy mode drives the
line at every evaluation. -/
def Obligations.IrqEvalDeliversSignal : Prop :=
  ∀ s : State,
    (s.msixInUse = true → s.cfg.asserted s.intStatus s.intMask = true →
      s.irqEval = { s with events := s.events ++ [.msixNotify 0] }) ∧
    (s.msixInUse = true → s.cfg.asserted s.intStatus s.intMask = false → s.irqEval = s) ∧
    (s.msixInUse = false →
      s.irqEval = { s with
        irqLine := s.cfg.asserted s.intStatus s.intMask
        events := s.events ++ [.irqLine (s.cfg.asserted s.intStatus s.intMask)] })

/-- The reads of plain storage: interrupt status, raw (R143), interrupt mask (R145), host-control-block size (R175). -/
def Obligations.RegisterReadsAnswerStorage : Prop :=
  ∀ (s : State) (win : Window), s.life = .attached →
    exec (.rdIntStatus win) s = .next { s with rdata := some (bytesOfWord s.intStatus) } ∧
    exec (.rdIntMask win) s = .next { s with rdata := some (bytesOfWord s.intMask) } ∧
    exec (.rdHcbSize win) s = .next { s with rdata := some (bytesOfWord s.hcbSize) }

/-- `WR.INTSTATUS` (R144): the written value does not matter; the doorbell bit is cleared except while a reply is not
drained; a drained reply returns to NONE; the interrupt is evaluated in every case. -/
def Obligations.StatusWriteAcknowledges : Prop :=
  ∀ (s : State) (win : Window) (v : Word), s.life = .attached → s.consistent = true →
    (s.dbState ≠ .read →
      exec (.wrIntStatus win v) s =
        .next { s with intStatus := s.intStatus &&& ~~~s.cfg.hisDoorbell }.irqEval) ∧
    (s.dbState = .read → s.readIdx = s.replyLen →
      exec (.wrIntStatus win v) s =
        .next { s with dbState := .none, intStatus := s.intStatus &&& ~~~s.cfg.hisDoorbell }.irqEval) ∧
    (s.dbState = .read → s.readIdx ≠ s.replyLen → exec (.wrIntStatus win v) s = .next s.irqEval)

/-- `WR.INTMASK` stores the maskable bits and evaluates the interrupt (R146). -/
def Obligations.MaskWriteStoresMaskableBits : Prop :=
  ∀ (s : State) (win : Window) (v : Word), s.life = .attached →
    exec (.wrIntMask win v) s =
      .next { s with intMask := v &&& (s.cfg.himDoorbell ||| s.cfg.himReply ||| s.cfg.himResetIrq) }.irqEval

/-- The call sites of `IrqEval()` (R142): an operation that is not one of them emits no event of the interrupt's delivery
and keeps the line. Detach releases the line (R228). -/
def Obligations.OnlyCallSitesDriveInterrupt : Prop :=
  ∀ (s t : State) (i : Instr), exec i s = .next t →
    i.op ∉ [.wrDoorbellMur, .wrDoorbellHandshake, .wrDoorbellData, .wrIntStatus, .wrIntMask, .wrHostDiag,
      .evAttach, .evHardReset, .evDetach] →
    t.irqLine = s.irqLine ∧ ∃ es, t.events = s.events ++ es ∧ ∀ e ∈ es, e.isInterrupt = false

/-! ## The diagnostic sequencer -/

/-- `WR.WRSEQ.FLUSH` (R156). -/
def Obligations.FlushClearsProgress : Prop :=
  ∀ (s : State) (win : Window) (v : Word), s.life = .attached → s.cfg.key v = s.cfg.kf →
    exec (.wrWrSeqFlush win v) s = .next { s with progress := 0, diag := 0 }

/-- `WR.WRSEQ.MATCH` (R157). -/
def Obligations.MatchingKeyAdvances : Prop :=
  ∀ (s : State) (win : Window) (v : Word), s.life = .attached → s.cfg.key v ≠ s.cfg.kf →
    s.cfg.keys.toList[s.progress]? = some (s.cfg.key v) →
    (s.progress < 5 → exec (.wrWrSeqMatch win v) s = .next { s with progress := s.progress + 1 }) ∧
    (s.progress = 5 →
      exec (.wrWrSeqMatch win v) s = .next { s with progress := 6, diag := s.diag ||| s.cfg.diagWe })

/-- `WR.WRSEQ.MISMATCH` (R158). -/
def Obligations.MismatchingKeyResets : Prop :=
  ∀ (s : State) (win : Window) (v : Word), s.life = .attached → s.cfg.key v ≠ s.cfg.kf →
    s.cfg.keys.toList[s.progress]? ≠ some (s.cfg.key v) →
    exec (.wrWrSeqMismatch win v) s = .next { s with
      progress := 0, diag := s.diag &&& ~~~s.cfg.diagWe
      events := s.events ++ [.violation (.key (s.cfg.key v) s.progress)] }

/-- `RD.WRSEQ` (R159). -/
def Obligations.WrSeqReadAnswersZero : Prop :=
  ∀ (s : State) (win : Window), s.life = .attached →
    exec (.rdWrSeq win) s = .next { s with
      rdata := some (bytesOfWord 0)
      events := s.events ++ [.violation (.writeOnlyRead s.cfg.offWrSeq)] }

/-- `RD.HOSTDIAG` returns `DIAG`, which between steps is 0 or `DIAG_WE` (R160, R24). -/
def Obligations.HostDiagReadAnswersDiag : Prop :=
  ∀ (s : State) (win : Window), s.life = .attached →
    exec (.rdHostDiag win) s = .next { s with rdata := some (bytesOfWord s.diag) } ∧
    (s.cfg.wf = true → AttachedInv s → s.diag = 0 ∨ s.diag = s.cfg.diagWe)

/-- `WR.HOSTDIAG` (R161): nothing while locked, nothing without the reset-adapter bit, else `DiagReset()` (R162). -/
def Obligations.HostDiagWriteGated : Prop :=
  ∀ (s : State) (win : Window) (v : Word), s.life = .attached →
    (s.diag &&& s.cfg.diagWe = 0 → exec (.wrHostDiag win v) s = .next s) ∧
    (s.diag &&& s.cfg.diagWe ≠ 0 → v &&& s.cfg.diagReset = 0 → exec (.wrHostDiag win v) s = .next s) ∧
    (s.diag &&& s.cfg.diagWe ≠ 0 → v &&& s.cfg.diagReset ≠ 0 →
      exec (.wrHostDiag win v) s = .next { s with
        opState := .ready, intStatus := 0, dbState := .none, capacity := 0, writeIdx := 0, outBuf := []
        replyBuf := [], replyLen := 0, readIdx := 0, progress := 0, diag := 0, hcbSize := s.cfg.hcbSizeDefault
        irqLine := if s.msixInUse then s.irqLine else false
        events := s.events ++ softResetEvents s.cfg s.msixInUse s.intStatus })

/-- The gate (R163): a host diagnostic write acts only with all six keys received, and then only with the reset bit. -/
def Obligations.DiagResetNeedsSixKeys : Prop :=
  ∀ (s t : State) (win : Window) (v : Word), AttachedInv s → exec (.wrHostDiag win v) s = .next t → t ≠ s →
    s.progress = 6 ∧ v &&& s.cfg.diagReset ≠ 0

/-- Only write-sequence writes touch `PROGRESS`, but for the resets and the fabric events; it rises by one at a time, and
only with the expected key (R163, R155). -/
def Obligations.ProgressMovesOnlyByKeysAndResets : Prop :=
  ∀ (s t : State) (i : Instr), exec i s = .next t → t.life = .attached → t.progress ≠ s.progress →
    (i.op = .wrWrSeqMatch ∧ t.progress = s.progress + 1 ∧ s.progress < 6) ∨
    (t.progress = 0 ∧ (i.op = .wrWrSeqFlush ∨ i.op = .wrWrSeqMismatch ∨ i.op = .evHardReset ∨ i.op = .evAttach ∨
      (i.op = .wrHostDiag ∧ s.unlocked = true)))

/-- The key sequence written in order from progress 0, through either window, sets write-enable and changes nothing else
(R155: "Key sequence {K1,K2,K3,K4,K5,K6} written in order sets write-enable"). -/
def Obligations.SixKeysInOrderUnlock : Prop :=
  ∀ (s : State) (win : Window) (v1 v2 v3 v4 v5 v6 : Word),
    s.cfg.wf = true → (win = .mem ∨ win = .io) → s.life = .attached → s.progress = 0 →
    [v1, v2, v3, v4, v5, v6].map s.cfg.key = s.cfg.keys.toList →
    deliver s ([v1, v2, v3, v4, v5, v6].map (encodeWrite s.cfg win .wrSeq)) = .next { s with
      inputs := [], rdata := none, events := [], progress := 6, diag := s.diag ||| s.cfg.diagWe }

/-- The other direction (R155, R163): whatever inputs are delivered, through either window and with any others between, a
block that starts at progress 0 and ends at progress 6, not detached, was last written the six keys, in order and with no
other key between them. (Detached, the progress is undefined, R228.) -/
def Obligations.UnlockedOnlyByKeysInOrder : Prop :=
  ∀ (s t : State) (inps : List Input),
    s.cfg.wf = true → s.progress = 0 → deliver s inps = .next t → t.life ≠ .detached → t.progress = 6 →
    ∃ earlier, keysWritten s.cfg inps = earlier ++ s.cfg.keys.toList

/-! ## The rest of the register file and the decoder's own operations -/

/-- `WR.HCBSIZE` stores all 32 bits (R176). -/
def Obligations.HcbSizeWriteStoresValue : Prop :=
  ∀ (s : State) (win : Window) (v : Word), s.life = .attached →
    exec (.wrHcbSize win v) s = .next { s with hcbSize := v }

/-- `RD.BADWIDTH` and `WR.BADWIDTH` (R96, R97). -/
def Obligations.BadWidthOperations : Prop :=
  ∀ (s : State) (win : Window) (off : Offset) (n : Nat) (data : List Byte), s.life = .attached →
    exec (.rdBadWidth win off n) s = .next { s with
      rdata := some (List.replicate n 0), events := s.events ++ [.violation (.width .read win off n)] } ∧
    exec (.wrBadWidth win off n data) s = .next { s with
      events := s.events ++ [.violation (.width .write win off n)] }

/-- `RD.DIAGWIN` and `WR.DIAGWIN` (R98, R99). -/
def Obligations.DiagWindowOperations : Prop :=
  ∀ (s : State) (off : Offset) (v : Word), s.life = .attached →
    exec (.rdDiagWin off) s = .next { s with
      rdata := some (bytesOfWord 0), events := s.events ++ [.violation (.diagWindow (.read off))] } ∧
    exec (.wrDiagWin off v) s = .next { s with
      events := s.events ++ [.violation (.diagWindow (.write off v))] }

/-- `RD.UNIMPL` and `WR.UNIMPL` (R100, R101) at an offset inside the window; an offset beyond the window is an unknown
offset (R67). -/
def Obligations.UnimplementedOffsetOperations : Prop :=
  ∀ (s : State) (win : Window) (off : Offset) (v : Word), s.life = .attached →
    (off.toNat < win.size → off ∈ s.cfg.unimplOffsets →
      exec (.rdUnimpl win off) s = .next { s with
        rdata := some (bytesOfWord 0), events := s.events ++ [.violation (.unimplemented (.read off))] } ∧
      exec (.wrUnimpl win off v) s = .next { s with
        events := s.events ++ [.violation (.unimplemented (.write off v))] }) ∧
    (¬ off.toNat < win.size ∨ off ∉ s.cfg.unimplOffsets →
      exec (.rdUnimpl win off) s = .next { s with
        rdata := some (bytesOfWord 0), events := s.events ++ [.violation (.unknownOffset (.read off))] } ∧
      exec (.wrUnimpl win off v) s = .next { s with
        events := s.events ++ [.violation (.unknownOffset (.write off v))] })

/-! ## Attach, hard reset, detach -/

/-- `EV.ATTACH` reaches the state of R229 whatever was there before (R227). Attached, it has no step: that this is a refusal
by name is the model's reading (assumption 10, DEDUCED), and the counter of undefined objects, one higher, is the model's
own (assumption 8). -/
def Obligations.AttachReachesResetState : Prop :=
  ∀ s : State,
    (s.life = .detached →
      exec .evAttach s = .next
        { cfg := s.cfg, life := .attached, opState := .ready, intStatus := 0, intMask := s.cfg.initIntMask
          dbState := .none, capacity := 0, writeIdx := 0, outBuf := [], replyBuf := [], replyLen := 0, readIdx := 0
          progress := 0, diag := 0, hcbSize := s.cfg.hcbSizeDefault, maxTargets := s.cfg.maxTargetsDefault
          maxBuses := s.cfg.maxBusesDefault
          wwn := (match s.cfg.wwnOverride with | some w => w | none => Config.deriveWwn s.cfg.bdf)
          msixInUse := s.cfg.msixAvailable && s.cfg.fabricMsix, irqLine := false
          inputs := s.inputs, rdata := s.rdata
          events := s.events ++ softResetEvents s.cfg (s.cfg.msixAvailable && s.cfg.fabricMsix) 0
          freeCount := s.freeCount + 1 }) ∧
    (s.life = .attached → exec .evAttach s = .refused .alreadyAttached)

/-- `EV.HARDRESET` reaches the state of R229, the attach-time values kept (R226). -/
def Obligations.HardResetReachesResetState : Prop :=
  ∀ s : State, s.life = .attached →
    exec .evHardReset s = .next { s with
      opState := .ready, intStatus := 0, intMask := s.cfg.initIntMask, dbState := .none, capacity := 0, writeIdx := 0
      outBuf := [], replyBuf := [], replyLen := 0, readIdx := 0, progress := 0, diag := 0
      hcbSize := s.cfg.hcbSizeDefault, maxTargets := s.cfg.maxTargetsDefault, maxBuses := s.cfg.maxBusesDefault
      irqLine := if s.msixInUse then s.irqLine else false
      events := s.events ++ softResetEvents s.cfg s.msixInUse s.intStatus }

/-- `EV.DETACH`, attached, ends DETACHED with the line released (R228); halted, it has no step and ends in the fault (R30,
R200; R228 names that trigger too, and that R30 and R200 win is the model's reading, assumption 10, DEDUCED). That MSI-X mode
emits nothing is the model's reading (assumption 16, DEDUCED). Nothing is said of the elements, which become undefined
(assumption 8). -/
def Obligations.DetachReleasesLine : Prop :=
  (∀ s : State, s.life = .halted → exec .evDetach s = .fault .halted) ∧
  ∀ s : State, s.life = .attached →
    ∃ t, exec .evDetach s = .next t ∧ t.life = .detached ∧
      t.events = s.events ++ (if s.msixInUse then [] else [.irqLine false]) ∧
      t.cfg = s.cfg ∧ t.inputs = s.inputs ∧ t.rdata = s.rdata

/-- A detach and an attach leave no memory of the earlier life (R228): two attached blocks of one configuration, whatever
their states, end in the same state. The premise on the counter of undefined objects is about the model's own field
(assumption 8). -/
def Obligations.ReattachForgetsEarlierLife : Prop :=
  ∀ s s' : State, s.cfg = s'.cfg → s.freeCount = s'.freeCount →
    s.life = .attached → s'.life = .attached →
    deliver s [.detach, .attach] = deliver s' [.detach, .attach] ∧
    ∃ t, deliver s [.detach, .attach] = .next t ∧ t.life = .attached

/-- While DETACHED only an attach has a step, and while HALTED nothing has (R30, R73 step 1, R200; that the first is a refusal
and the second a fault, a detach included, is the model's reading, assumption 10, DEDUCED). -/
def Obligations.NoStepUnlessAttached : Prop :=
  ∀ (s : State) (i : Instr),
    (s.life = .detached → i ≠ .evAttach → exec i s = .refused .detached) ∧
    (s.life = .halted → exec i s = .fault .halted)

/-- HALTED is never a final state and never cleared (R7, R30, R200): no step of a halted block answers a next state, whatever
input is pending, a detach included (assumption 10, DEDUCED), and with none pending (assumption 14, DEDUCED). -/
def Obligations.HaltedBlockNeverSteps : Prop :=
  ∀ s t : State, s.life = .halted → step s ≠ .next t

/-! ## Rules over the whole machine -/

/-- Reads leave the state as it is (R60), but for the one that consumes a reply word. -/
def Obligations.ReadsChangeOnlyReadIndex : Prop :=
  ∀ (s t : State) (i : Instr), i.op.isRead = true → s.consistent = true → exec i s = .next t →
    t = { s with readIdx := t.readIdx, rdata := t.rdata, events := t.events } ∧
    (t.readIdx ≠ s.readIdx →
      i.op = .rdDoorbell ∧ s.dbState = .read ∧ s.readIdx < s.replyLen ∧ t.readIdx = s.readIdx + 1)

/-- A read answers as many bytes as it asked for (R70), and no other operation answers. -/
def Obligations.OnlyReadsAnswer : Prop :=
  ∀ (s t : State) (i : Instr), s.consistent = true → exec i s = .next t →
    (i.op.isRead = true → ∃ bs, t.rdata = some bs ∧
      bs.length = (match i with | .rdBadWidth _ _ n => n | _ => 4)) ∧
    (i.op.isRead = false → t.rdata = s.rdata)

/-- The transitions of the doorbell state are those of the table of R115. -/
def Obligations.DoorbellTransitionsAreTabled : Prop :=
  ∀ (s t : State) (i : Instr), s.life = .attached → s.consistent = true → exec i s = .next t → t.life = .attached →
    t.dbState ≠ s.dbState →
    (s.dbState = .none ∧ i.op = .wrDoorbellHandshake ∧ t.dbState = .write) ∨
    (s.dbState = .write ∧ i.op = .wrDoorbellData ∧ s.writeIdx + 1 = s.capacity ∧
      t.dbState = (match s.cfg.handler.answer t.outBuf with | .words _ => .read | .noReply => .none)) ∨
    (s.dbState = .write ∧ i.op = .wrDoorbellOverrun ∧ s.capacity ≤ s.writeIdx ∧ t.dbState = .none) ∨
    (s.dbState = .read ∧ i.op = .wrIntStatus ∧ s.readIdx = s.replyLen ∧ t.dbState = .none) ∨
    ((i.op = .wrDoorbellMur ∨ i.op = .wrHostDiag ∨ i.op = .evHardReset) ∧ t.dbState = .none)

/-- One access raises at most one violation code (R202). -/
def Obligations.AtMostOneViolation : Prop :=
  ∀ (s t : State) (i : Instr), s.consistent = true → exec i s = .next t →
    ∃ es, t.events = s.events ++ es ∧ violationCount es ≤ 1

/-- `IO` decodes the same registers into the same storage as `MEM` (R52): an aligned 4-byte access at an offset both
windows have does the same through either. -/
def Obligations.WindowsShareRegisters : Prop :=
  ∀ (s : State) (d : Dir) (off : Offset) (data : List Byte) (rest : List Input),
    off.toNat < 0x100 → off.toNat % 4 = 0 →
    step { s with inputs := .transaction (packTx d .mem 4 off) data :: rest } =
    step { s with inputs := .transaction (packTx d .io 4 off) data :: rest }

/-- The message handler is asked only by the data write that fills the buffer (R119, R120): with another handler plugged
in, every other operation does the same. -/
def Obligations.HandlerAskedOnlyOnCompletion : Prop :=
  ∀ (s : State) (i : Instr) (h : Handler), ¬ (i.op = .wrDoorbellData ∧ s.writeIdx + 1 = s.capacity) →
    exec i (s.withHandler h) = mapNext (fun t => t.withHandler h) (exec i s)

/-- "For all sequences of doorbell writes with a declared capacity N, after N accepted words the outbound buffer holds
exactly N words in write order, and `writeIndex == N`" (R119), and before the N-th word the block still accumulates. -/
def Obligations.AcceptedWordsFillBuffer : Prop :=
  ∀ (s : State) (win : Window) (v : Word) (ws : List Word),
    s.cfg.wf = true → (win = .mem ∨ win = .io) → s.life = .attached → s.consistent = true → s.dbState = .none →
    s.cfg.fn v = s.cfg.fnHandshake → (∀ w ∈ ws, s.cfg.fn w ≠ s.cfg.fnMur) →
    ws.length ≤ s.cfg.add v →
    ∃ t, deliver s ((v :: ws).map (encodeWrite s.cfg win .doorbell)) = .next t ∧
      t.outBuf = ws ∧ t.writeIdx = ws.length ∧ t.capacity = s.cfg.add v ∧
      (ws.length < s.cfg.add v → t.dbState = .write) ∧
      (ws.length = s.cfg.add v → 0 < ws.length →
        t.dbState = (match s.cfg.handler.answer ws with | .words _ => .read | .noReply => .none))

/-- A reply streams out in order, then reads return the used flag alone, and the acknowledge after it is drained returns
to NONE (R59, R125, R127, R144). -/
def Obligations.ReplyStreamsThenAcknowledge : Prop :=
  ∀ (s : State) (win : Window) (v : Word),
    s.cfg.wf = true → (win = .mem ∨ win = .io) → s.life = .attached → s.consistent = true → s.dbState = .read →
    s.readIdx = 0 → s.replyLen = s.replyBuf.length →
    (∀ (k : Nat) (w : Half), s.replyBuf[k]? = some w →
      deliver s (List.replicate (k + 1) (encodeRead s.cfg win .doorbell)) = .next { s with
        inputs := [], events := [], readIdx := k + 1
        rdata := some (bytesOfWord (s.cfg.dbUsed ||| w.setWidth 32)) }) ∧
    (∀ k : Nat, s.replyLen < k →
      deliver s (List.replicate k (encodeRead s.cfg win .doorbell)) = .next { s with
        inputs := [], events := [], readIdx := s.replyLen, rdata := some (bytesOfWord s.cfg.dbUsed) }) ∧
    ∃ t, deliver s (List.replicate s.replyLen (encodeRead s.cfg win .doorbell) ++
        [encodeWrite s.cfg win .intStatus v]) = .next t ∧
      t.dbState = .none ∧ t.intStatus = s.intStatus &&& ~~~s.cfg.hisDoorbell

/-- A message-unit reset and an acknowledge bring an attached block to rest, whatever it was doing (R117, R225, R144; the
premise leaves out only the state in which a debug build halts). -/
def Obligations.ResetThenAcknowledgeIdles : Prop :=
  ∀ (s : State) (win : Window) (v ack : Word),
    s.cfg.wf = true → (win = .mem ∨ win = .io) → s.life = .attached →
    (s.consistent = true ∨ s.cfg.debugBuild = false) → s.cfg.fn v = s.cfg.fnMur →
    ∃ t, deliver s [encodeWrite s.cfg win .doorbell v, encodeWrite s.cfg win .intStatus ack] = .next t ∧
      t.life = .attached ∧ t.opState = .ready ∧ t.dbState = .none ∧ t.intStatus = 0 ∧
      (s.msixInUse = false → t.irqLine = false)

/-- The byte image of the outbound buffer is little-endian per word (R58): byte `4i + j` is bits `8j + 7` to `8j` of word
`i`. -/
def Obligations.OutboundImageIsLittleEndian : Prop :=
  ∀ (s : State) (i j : Nat) (w : Word), s.outBuf[i]? = some w → j < 4 →
    s.outImage[4 * i + j]? = some (w.extractLsb' (8 * j) 8)
end

