-- ==== Sys2Proof/Laws/Operands.lean ====
section
/-! SUPPORT. The laws of the byte order and of the dispatch table: a value survives being written as bytes, and a register
is found at its own offset and nowhere else. -/

namespace Sys2Proof

@[simp] theorem littleEndian_length (k x : Nat) : (littleEndian k x).length = k := by
  induction k generalizing x with
  | zero => rfl
  | succ k ih => simp [littleEndian, ih]

@[simp] theorem bytesOfWord_length (w : Word) : (bytesOfWord w).length = 4 := littleEndian_length 4 _

@[simp] theorem bytesOfHalf_length (h : Half) : (bytesOfHalf h).length = 2 := littleEndian_length 2 _

@[simp] theorem zeroBytes_length (n : Nat) : (zeroBytes n).length = n := List.length_replicate

/-- The bytes of a number give it back, up to the bytes that do not fit. -/
theorem numberOfBytes_littleEndian (k x : Nat) : numberOfBytes (littleEndian k x) = x % 256 ^ k := by
  induction k generalizing x with
  | zero => simp [littleEndian, numberOfBytes, Nat.mod_one]
  | succ k ih =>
    rw [Nat.pow_succ, Nat.mul_comm (256 ^ k) 256, Nat.mod_mul, littleEndian, numberOfBytes, ih, BitVec.toNat_ofNat]

/-- Bytes are the little-endian bytes of the number they make. -/
theorem littleEndian_numberOfBytes (bs : List Byte) : littleEndian bs.length (numberOfBytes bs) = bs := by
  induction bs with
  | nil => rfl
  | cons b bs ih =>
    have hb := b.isLt
    have h1 : BitVec.ofNat 8 (b.toNat + 256 * numberOfBytes bs) = b := by
      apply BitVec.eq_of_toNat_eq
      simp only [BitVec.toNat_ofNat]
      omega
    have h2 : (b.toNat + 256 * numberOfBytes bs) / 256 = numberOfBytes bs := by omega
    simp only [List.length_cons, littleEndian, numberOfBytes, h1, h2, ih]

/-- The number of `k` bytes is below `256 ^ k`. -/
theorem numberOfBytes_lt (bs : List Byte) : numberOfBytes bs < 256 ^ bs.length := by
  induction bs with
  | nil => simp [numberOfBytes]
  | cons b bs ih =>
    have hb := b.isLt
    simp only [numberOfBytes, List.length_cons, Nat.pow_succ]
    omega

/-- A register value survives the bus (20_memory.md R57). -/
@[simp] theorem wordOfBytes_bytesOfWord (w : Word) : wordOfBytes (bytesOfWord w) = w := by
  apply BitVec.eq_of_toNat_eq
  simp only [wordOfBytes, bytesOfWord, numberOfBytes_littleEndian, BitVec.toNat_ofNat]
  have := w.isLt
  omega

/-- Four bytes survive being read as a register value (20_memory.md R57). -/
theorem bytesOfWord_wordOfBytes (bs : List Byte) (h : bs.length = 4) : bytesOfWord (wordOfBytes bs) = bs := by
  have hlt := numberOfBytes_lt bs
  rw [h] at hlt
  have hv : (wordOfBytes bs).toNat = numberOfBytes bs := by
    simp only [wordOfBytes, BitVec.toNat_ofNat]
    omega
  rw [bytesOfWord, hv, ← h, littleEndian_numberOfBytes]

/-- Different values have different bytes. -/
theorem bytesOfWord_injective : Function.Injective bytesOfWord := fun a b h => by
  rw [← wordOfBytes_bytesOfWord a, h, wordOfBytes_bytesOfWord]

/-- What the dispatch table answers is a register at that very offset, reached through a window that holds registers. -/
theorem registerAt_some {c : Cfg} {w : Window} {off : Offset} {r : Reg} (h : c.registerAt w off = some r) :
    w.holdsRegisters = true ∧ w.reaches off = true ∧ off = c.offsetOf r := by
  unfold Cfg.registerAt Cfg.dispatchTable at h
  split at h
  · rename_i hr
    split at h
    · rename_i hw
      refine ⟨hw, hr, ?_⟩
      obtain ⟨l₁, l₂, heq, -⟩ := List.lookup_eq_some_iff.mp h
      have hmem : (off, r) ∈ Reg.all.map (fun r => (c.offsetOf r, r)) := by rw [heq]; simp
      obtain ⟨r', -, he⟩ := List.mem_map.mp hmem
      cases he
      rfl
    · simp at h
  · cases h

end Sys2Proof
end

