-- ==== Sys2Proof/Laws/Decode.lean ====
section
/-! SUPPORT. The descriptor's fields come back from the packed descriptor, and the sub-decoders answer only operations
that the data and the position select. -/

namespace Sys2Proof

@[simp] theorem dirOfCode_code (d : Dir) : dirOfCode d.code = d := by cases d <;> rfl

@[simp] theorem windowOfCode_code (w : Window) : windowOfCode w.code = w := by cases w <;> rfl

@[simp] theorem code_dirOfCode (b : BitVec 1) : (dirOfCode b).code = b := by
  revert b
  decide

@[simp] theorem code_windowOfCode (b : BitVec 2) : (windowOfCode b).code = b := by
  revert b
  decide

/-- `tx[23]` of a packed descriptor. -/
@[simp] theorem txDir_packTx (d : Dir) (w : Window) (n : Nat) (off : Offset) : txDir (packTx d w n off) = d := by
  have h : (packTx d w n off).extractLsb' 23 1 = d.code := by
    apply BitVec.eq_of_getLsbD_eq
    intro i hi
    have h0 : i = 0 := by omega
    simp only [packTx, BitVec.getLsbD_extractLsb', BitVec.getLsbD_append]
    simp [h0]
  rw [txDir, h, dirOfCode_code]

/-- `tx[22:21]` of a packed descriptor. -/
@[simp] theorem txWindow_packTx (d : Dir) (w : Window) (n : Nat) (off : Offset) :
    txWindow (packTx d w n off) = w := by
  have h : (packTx d w n off).extractLsb' 21 2 = w.code := by
    apply BitVec.eq_of_getLsbD_eq
    intro i hi
    have h0 : i = 0 ∨ i = 1 := by omega
    simp only [packTx, BitVec.getLsbD_extractLsb', BitVec.getLsbD_append]
    obtain h0 | h0 := h0 <;> simp [h0]
  rw [txWindow, h, windowOfCode_code]

/-- `tx[20:16]` of a packed descriptor. -/
theorem txSize_packTx (d : Dir) (w : Window) (n : Nat) (off : Offset) : txSize (packTx d w n off) = n % 32 := by
  have h : (packTx d w n off).extractLsb' 16 5 = BitVec.ofNat 5 n := by
    apply BitVec.eq_of_getLsbD_eq
    intro i hi
    simp only [packTx, BitVec.getLsbD_extractLsb', BitVec.getLsbD_append]
    simp [hi]
  rw [txSize, h, BitVec.toNat_ofNat]

/-- `tx[15:0]` of a packed descriptor. -/
@[simp] theorem txOffset_packTx (d : Dir) (w : Window) (n : Nat) (off : Offset) :
    txOffset (packTx d w n off) = off := by
  apply BitVec.eq_of_getLsbD_eq
  intro i hi
  simp only [txOffset, packTx, BitVec.getLsbD_extractLsb', BitVec.getLsbD_append]
  simp [hi]

/-- A descriptor is its four fields. -/
theorem packTx_fields (tx : BitVec 24) : packTx (txDir tx) (txWindow tx) (txSize tx) (txOffset tx) = tx := by
  apply BitVec.eq_of_getLsbD_eq
  intro i hi
  simp only [packTx, txDir, txWindow, txSize, txOffset, code_dirOfCode, code_windowOfCode, BitVec.ofNat_toNat,
    BitVec.setWidth_eq, BitVec.getLsbD_append, BitVec.getLsbD_extractLsb']
  by_cases h1 : i < 16
  · simp [h1]
  · by_cases h2 : i - 16 < 5
    · have : 16 + (i - 16) = i := by omega
      simp [h1, h2, this]
    · by_cases h3 : i - 16 - 5 < 2
      · have : 21 + (i - 16 - 5) = i := by omega
        simp [h1, h2, h3, this]
      · have h4 : i - 16 - 5 - 2 < 1 := by omega
        have : 23 + (i - 16 - 5 - 2) = i := by omega
        simp [h1, h2, h3, h4, this]

/-- What a doorbell write decodes to is selected by its value and the position (41_doorbell_handshake.md R116). -/
theorem decodeDoorbellWrite_selected (c : Cfg) (p : Position) (win : Window) (v : Word) :
    (decodeDoorbellWrite c p win v).selected c p = true := by
  unfold decodeDoorbellWrite
  split
  · simp_all [Instr.selected, Cfg.selectsMur]
  · split
    · split <;> simp_all [Instr.selected, Cfg.selectsData, Cfg.selectsOverrun, Cfg.selectsMur]
    · split <;> simp_all [Instr.selected, Cfg.selectsHandshake, Cfg.selectsOtherFn, Cfg.selectsMur]
    · simp_all [Instr.selected, Cfg.selectsInRead, Cfg.selectsMur]

/-- What a write-sequence write decodes to is selected by its value and the position (43_diagnostic_unlock.md). -/
theorem decodeWrSeqWrite_selected (c : Cfg) (p : Position) (win : Window) (v : Word) :
    (decodeWrSeqWrite c p win v).selected c p = true := by
  unfold decodeWrSeqWrite
  split
  · simp_all [Instr.selected, Cfg.selectsFlush]
  · split <;> simp_all [Instr.selected, Cfg.selectsMatch, Cfg.selectsMismatch, Cfg.selectsFlush, Cfg.isExpectedKey]

/-! ## Registers are found where they are -/

/-- In a well-formed configuration a register is found at its own offset of either window, which is aligned
(00_scope.md R5 item 1). -/
theorem registerAt_offsetOf {c : Cfg} (hc : c.wf = true) (r : Reg) {w : Window} (hw : w.holdsRegisters = true) :
    c.registerAt w (c.offsetOf r) = some r ∧ badWidth (c.offsetOf r) 4 = false := by
  simp only [Cfg.wf, Cfg.wfOffsets, Bool.and_eq_true, Cfg.offsets, List.all_eq_true, decide_eq_true_eq] at hc
  obtain ⟨⟨⟨⟨⟨⟨⟨⟨hn, hall⟩, -⟩, -⟩, -⟩, -⟩, -⟩, -⟩, -⟩ := hc
  have hr := hall (c.offsetOf r) (by cases r <;> simp [Reg.all])
  refine ⟨?_, by simp [badWidth, hr.1.1]⟩
  have hreach : w.reaches (c.offsetOf r) = true := by
    have hlt := hr.1.2
    cases w with
    | mem => exact decide_eq_true (show _ < 0x10000 by omega)
    | io => exact decide_eq_true (show _ < 0x100 from hlt)
    | diagWin => cases hw
    | absent => cases hw
  simp only [Cfg.registerAt, hreach, if_true, Cfg.dispatchTable, hw]
  clear hall hr hreach
  simp [Reg.all, Cfg.offsetOf] at hn
  obtain ⟨⟨a1, a2, a3, a4, a5⟩, ⟨b1, b2, b3, b4⟩, ⟨c1, c2, c3⟩, ⟨d1, d2⟩, e1⟩ := hn
  cases r <;> simp [Reg.all, Cfg.offsetOf, List.lookup_cons, beq_eq_decide, *, eq_comm]

/-- A 4-byte read at a register's offset decodes to that register's read. -/
theorem decode_encodeRead {c : Cfg} (p : Position) (hc : c.wf = true) (r : Reg) {w : Window}
    (hw : w.holdsRegisters = true) : decode c p (encodeRead c w r) = .ok (decodeRegisterRead c w (c.offsetOf r)) := by
  obtain ⟨-, h⟩ := registerAt_offsetOf hc r hw
  cases w with
  | mem => simp [encodeRead, decode, decodeRead, txSize_packTx, h]
  | io => simp [encodeRead, decode, decodeRead, txSize_packTx, h]
  | diagWin => cases hw
  | absent => cases hw

/-- A 4-byte write to a register's offset decodes to that register's write, with the value written. -/
theorem decode_encodeWrite {c : Cfg} (p : Position) (hc : c.wf = true) (r : Reg) {w : Window}
    (hw : w.holdsRegisters = true) (v : Word) :
    decode c p (encodeWrite c w r v) = .ok (decodeRegisterWrite c p w (c.offsetOf r) v) := by
  obtain ⟨-, h⟩ := registerAt_offsetOf hc r hw
  cases w with
  | mem => simp [encodeWrite, decode, decodeWrite, txSize_packTx, h]
  | io => simp [encodeWrite, decode, decodeWrite, txSize_packTx, h]
  | diagWin => cases hw
  | absent => cases hw

end Sys2Proof
end

