-- ==== Sys2Proof/Laws/State.lean ====
section
/-! SUPPORT. One lemma per field per update of the state, and the closed form of each computed update (`irqEval_eq`,
`softReset_eq`, …), so that no later proof unfolds a record update. -/

namespace Sys2Proof.Machine

variable (s : State)


/-! ### emit -/

@[simp] theorem State.emit_cfg (e : Event) : (s.emit e).cfg = s.cfg := rfl
@[simp] theorem State.emit_life (e : Event) : (s.emit e).life = s.life := rfl
@[simp] theorem State.emit_opState (e : Event) : (s.emit e).opState = s.opState := rfl
@[simp] theorem State.emit_intStatus (e : Event) : (s.emit e).intStatus = s.intStatus := rfl
@[simp] theorem State.emit_intMask (e : Event) : (s.emit e).intMask = s.intMask := rfl
@[simp] theorem State.emit_dbState (e : Event) : (s.emit e).dbState = s.dbState := rfl
@[simp] theorem State.emit_capacity (e : Event) : (s.emit e).capacity = s.capacity := rfl
@[simp] theorem State.emit_writeIdx (e : Event) : (s.emit e).writeIdx = s.writeIdx := rfl
@[simp] theorem State.emit_outBuf (e : Event) : (s.emit e).outBuf = s.outBuf := rfl
@[simp] theorem State.emit_replyBuf (e : Event) : (s.emit e).replyBuf = s.replyBuf := rfl
@[simp] theorem State.emit_replyLen (e : Event) : (s.emit e).replyLen = s.replyLen := rfl
@[simp] theorem State.emit_readIdx (e : Event) : (s.emit e).readIdx = s.readIdx := rfl
@[simp] theorem State.emit_progress (e : Event) : (s.emit e).progress = s.progress := rfl
@[simp] theorem State.emit_diag (e : Event) : (s.emit e).diag = s.diag := rfl
@[simp] theorem State.emit_hcbSize (e : Event) : (s.emit e).hcbSize = s.hcbSize := rfl
@[simp] theorem State.emit_maxTargets (e : Event) : (s.emit e).maxTargets = s.maxTargets := rfl
@[simp] theorem State.emit_maxBuses (e : Event) : (s.emit e).maxBuses = s.maxBuses := rfl
@[simp] theorem State.emit_wwn (e : Event) : (s.emit e).wwn = s.wwn := rfl
@[simp] theorem State.emit_msixInUse (e : Event) : (s.emit e).msixInUse = s.msixInUse := rfl
@[simp] theorem State.emit_irqLine (e : Event) : (s.emit e).irqLine = s.irqLine := rfl
@[simp] theorem State.emit_inputs (e : Event) : (s.emit e).inputs = s.inputs := rfl
@[simp] theorem State.emit_rdata (e : Event) : (s.emit e).rdata = s.rdata := rfl
@[simp] theorem State.emit_events (e : Event) : (s.emit e).events = s.events ++ [e] := rfl
@[simp] theorem State.emit_freeCount (e : Event) : (s.emit e).freeCount = s.freeCount := rfl

/-! ### raiseFatal -/

@[simp] theorem State.raiseFatal_cfg : (s.raiseFatal).cfg = s.cfg := rfl
@[simp] theorem State.raiseFatal_life : (s.raiseFatal).life = .halted := rfl
@[simp] theorem State.raiseFatal_opState : (s.raiseFatal).opState = s.opState := rfl
@[simp] theorem State.raiseFatal_intStatus : (s.raiseFatal).intStatus = s.intStatus := rfl
@[simp] theorem State.raiseFatal_intMask : (s.raiseFatal).intMask = s.intMask := rfl
@[simp] theorem State.raiseFatal_dbState : (s.raiseFatal).dbState = s.dbState := rfl
@[simp] theorem State.raiseFatal_capacity : (s.raiseFatal).capacity = s.capacity := rfl
@[simp] theorem State.raiseFatal_writeIdx : (s.raiseFatal).writeIdx = s.writeIdx := rfl
@[simp] theorem State.raiseFatal_outBuf : (s.raiseFatal).outBuf = s.outBuf := rfl
@[simp] theorem State.raiseFatal_replyBuf : (s.raiseFatal).replyBuf = s.replyBuf := rfl
@[simp] theorem State.raiseFatal_replyLen : (s.raiseFatal).replyLen = s.replyLen := rfl
@[simp] theorem State.raiseFatal_readIdx : (s.raiseFatal).readIdx = s.readIdx := rfl
@[simp] theorem State.raiseFatal_progress : (s.raiseFatal).progress = s.progress := rfl
@[simp] theorem State.raiseFatal_diag : (s.raiseFatal).diag = s.diag := rfl
@[simp] theorem State.raiseFatal_hcbSize : (s.raiseFatal).hcbSize = s.hcbSize := rfl
@[simp] theorem State.raiseFatal_maxTargets : (s.raiseFatal).maxTargets = s.maxTargets := rfl
@[simp] theorem State.raiseFatal_maxBuses : (s.raiseFatal).maxBuses = s.maxBuses := rfl
@[simp] theorem State.raiseFatal_wwn : (s.raiseFatal).wwn = s.wwn := rfl
@[simp] theorem State.raiseFatal_msixInUse : (s.raiseFatal).msixInUse = s.msixInUse := rfl
@[simp] theorem State.raiseFatal_irqLine : (s.raiseFatal).irqLine = s.irqLine := rfl
@[simp] theorem State.raiseFatal_inputs : (s.raiseFatal).inputs = s.inputs := rfl
@[simp] theorem State.raiseFatal_rdata : (s.raiseFatal).rdata = none := rfl
@[simp] theorem State.raiseFatal_events : (s.raiseFatal).events = s.events ++ [.fatal .state] := rfl
@[simp] theorem State.raiseFatal_freeCount : (s.raiseFatal).freeCount = s.freeCount := rfl

/-! ### answer -/

@[simp] theorem State.answer_cfg (v : Word) : (s.answer v).cfg = s.cfg := rfl
@[simp] theorem State.answer_life (v : Word) : (s.answer v).life = s.life := rfl
@[simp] theorem State.answer_opState (v : Word) : (s.answer v).opState = s.opState := rfl
@[simp] theorem State.answer_intStatus (v : Word) : (s.answer v).intStatus = s.intStatus := rfl
@[simp] theorem State.answer_intMask (v : Word) : (s.answer v).intMask = s.intMask := rfl
@[simp] theorem State.answer_dbState (v : Word) : (s.answer v).dbState = s.dbState := rfl
@[simp] theorem State.answer_capacity (v : Word) : (s.answer v).capacity = s.capacity := rfl
@[simp] theorem State.answer_writeIdx (v : Word) : (s.answer v).writeIdx = s.writeIdx := rfl
@[simp] theorem State.answer_outBuf (v : Word) : (s.answer v).outBuf = s.outBuf := rfl
@[simp] theorem State.answer_replyBuf (v : Word) : (s.answer v).replyBuf = s.replyBuf := rfl
@[simp] theorem State.answer_replyLen (v : Word) : (s.answer v).replyLen = s.replyLen := rfl
@[simp] theorem State.answer_readIdx (v : Word) : (s.answer v).readIdx = s.readIdx := rfl
@[simp] theorem State.answer_progress (v : Word) : (s.answer v).progress = s.progress := rfl
@[simp] theorem State.answer_diag (v : Word) : (s.answer v).diag = s.diag := rfl
@[simp] theorem State.answer_hcbSize (v : Word) : (s.answer v).hcbSize = s.hcbSize := rfl
@[simp] theorem State.answer_maxTargets (v : Word) : (s.answer v).maxTargets = s.maxTargets := rfl
@[simp] theorem State.answer_maxBuses (v : Word) : (s.answer v).maxBuses = s.maxBuses := rfl
@[simp] theorem State.answer_wwn (v : Word) : (s.answer v).wwn = s.wwn := rfl
@[simp] theorem State.answer_msixInUse (v : Word) : (s.answer v).msixInUse = s.msixInUse := rfl
@[simp] theorem State.answer_irqLine (v : Word) : (s.answer v).irqLine = s.irqLine := rfl
@[simp] theorem State.answer_inputs (v : Word) : (s.answer v).inputs = s.inputs := rfl
@[simp] theorem State.answer_rdata (v : Word) : (s.answer v).rdata = some (bytesOfWord v) := rfl
@[simp] theorem State.answer_events (v : Word) : (s.answer v).events = s.events := rfl
@[simp] theorem State.answer_freeCount (v : Word) : (s.answer v).freeCount = s.freeCount := rfl

/-! ### answerZeros -/

@[simp] theorem State.answerZeros_cfg (n : Nat) : (s.answerZeros n).cfg = s.cfg := rfl
@[simp] theorem State.answerZeros_life (n : Nat) : (s.answerZeros n).life = s.life := rfl
@[simp] theorem State.answerZeros_opState (n : Nat) : (s.answerZeros n).opState = s.opState := rfl
@[simp] theorem State.answerZeros_intStatus (n : Nat) : (s.answerZeros n).intStatus = s.intStatus := rfl
@[simp] theorem State.answerZeros_intMask (n : Nat) : (s.answerZeros n).intMask = s.intMask := rfl
@[simp] theorem State.answerZeros_dbState (n : Nat) : (s.answerZeros n).dbState = s.dbState := rfl
@[simp] theorem State.answerZeros_capacity (n : Nat) : (s.answerZeros n).capacity = s.capacity := rfl
@[simp] theorem State.answerZeros_writeIdx (n : Nat) : (s.answerZeros n).writeIdx = s.writeIdx := rfl
@[simp] theorem State.answerZeros_outBuf (n : Nat) : (s.answerZeros n).outBuf = s.outBuf := rfl
@[simp] theorem State.answerZeros_replyBuf (n : Nat) : (s.answerZeros n).replyBuf = s.replyBuf := rfl
@[simp] theorem State.answerZeros_replyLen (n : Nat) : (s.answerZeros n).replyLen = s.replyLen := rfl
@[simp] theorem State.answerZeros_readIdx (n : Nat) : (s.answerZeros n).readIdx = s.readIdx := rfl
@[simp] theorem State.answerZeros_progress (n : Nat) : (s.answerZeros n).progress = s.progress := rfl
@[simp] theorem State.answerZeros_diag (n : Nat) : (s.answerZeros n).diag = s.diag := rfl
@[simp] theorem State.answerZeros_hcbSize (n : Nat) : (s.answerZeros n).hcbSize = s.hcbSize := rfl
@[simp] theorem State.answerZeros_maxTargets (n : Nat) : (s.answerZeros n).maxTargets = s.maxTargets := rfl
@[simp] theorem State.answerZeros_maxBuses (n : Nat) : (s.answerZeros n).maxBuses = s.maxBuses := rfl
@[simp] theorem State.answerZeros_wwn (n : Nat) : (s.answerZeros n).wwn = s.wwn := rfl
@[simp] theorem State.answerZeros_msixInUse (n : Nat) : (s.answerZeros n).msixInUse = s.msixInUse := rfl
@[simp] theorem State.answerZeros_irqLine (n : Nat) : (s.answerZeros n).irqLine = s.irqLine := rfl
@[simp] theorem State.answerZeros_inputs (n : Nat) : (s.answerZeros n).inputs = s.inputs := rfl
@[simp] theorem State.answerZeros_rdata (n : Nat) : (s.answerZeros n).rdata = some (zeroBytes n) := rfl
@[simp] theorem State.answerZeros_events (n : Nat) : (s.answerZeros n).events = s.events := rfl
@[simp] theorem State.answerZeros_freeCount (n : Nat) : (s.answerZeros n).freeCount = s.freeCount := rfl

/-! ### clearDoorbellStatus -/

@[simp] theorem State.clearDoorbellStatus_cfg : (s.clearDoorbellStatus).cfg = s.cfg := rfl
@[simp] theorem State.clearDoorbellStatus_life : (s.clearDoorbellStatus).life = s.life := rfl
@[simp] theorem State.clearDoorbellStatus_opState : (s.clearDoorbellStatus).opState = s.opState := rfl
@[simp] theorem State.clearDoorbellStatus_intStatus : (s.clearDoorbellStatus).intStatus = s.intStatus &&& ~~~s.cfg.hisDoorbell := rfl
@[simp] theorem State.clearDoorbellStatus_intMask : (s.clearDoorbellStatus).intMask = s.intMask := rfl
@[simp] theorem State.clearDoorbellStatus_dbState : (s.clearDoorbellStatus).dbState = s.dbState := rfl
@[simp] theorem State.clearDoorbellStatus_capacity : (s.clearDoorbellStatus).capacity = s.capacity := rfl
@[simp] theorem State.clearDoorbellStatus_writeIdx : (s.clearDoorbellStatus).writeIdx = s.writeIdx := rfl
@[simp] theorem State.clearDoorbellStatus_outBuf : (s.clearDoorbellStatus).outBuf = s.outBuf := rfl
@[simp] theorem State.clearDoorbellStatus_replyBuf : (s.clearDoorbellStatus).replyBuf = s.replyBuf := rfl
@[simp] theorem State.clearDoorbellStatus_replyLen : (s.clearDoorbellStatus).replyLen = s.replyLen := rfl
@[simp] theorem State.clearDoorbellStatus_readIdx : (s.clearDoorbellStatus).readIdx = s.readIdx := rfl
@[simp] theorem State.clearDoorbellStatus_progress : (s.clearDoorbellStatus).progress = s.progress := rfl
@[simp] theorem State.clearDoorbellStatus_diag : (s.clearDoorbellStatus).diag = s.diag := rfl
@[simp] theorem State.clearDoorbellStatus_hcbSize : (s.clearDoorbellStatus).hcbSize = s.hcbSize := rfl
@[simp] theorem State.clearDoorbellStatus_maxTargets : (s.clearDoorbellStatus).maxTargets = s.maxTargets := rfl
@[simp] theorem State.clearDoorbellStatus_maxBuses : (s.clearDoorbellStatus).maxBuses = s.maxBuses := rfl
@[simp] theorem State.clearDoorbellStatus_wwn : (s.clearDoorbellStatus).wwn = s.wwn := rfl
@[simp] theorem State.clearDoorbellStatus_msixInUse : (s.clearDoorbellStatus).msixInUse = s.msixInUse := rfl
@[simp] theorem State.clearDoorbellStatus_irqLine : (s.clearDoorbellStatus).irqLine = s.irqLine := rfl
@[simp] theorem State.clearDoorbellStatus_inputs : (s.clearDoorbellStatus).inputs = s.inputs := rfl
@[simp] theorem State.clearDoorbellStatus_rdata : (s.clearDoorbellStatus).rdata = s.rdata := rfl
@[simp] theorem State.clearDoorbellStatus_events : (s.clearDoorbellStatus).events = s.events := rfl
@[simp] theorem State.clearDoorbellStatus_freeCount : (s.clearDoorbellStatus).freeCount = s.freeCount := rfl

/-! ### selfCorrect -/

@[simp] theorem State.selfCorrect_cfg : (s.selfCorrect).cfg = s.cfg := rfl
@[simp] theorem State.selfCorrect_life : (s.selfCorrect).life = s.life := rfl
@[simp] theorem State.selfCorrect_opState : (s.selfCorrect).opState = s.opState := rfl
@[simp] theorem State.selfCorrect_intStatus : (s.selfCorrect).intStatus = s.intStatus := rfl
@[simp] theorem State.selfCorrect_intMask : (s.selfCorrect).intMask = s.intMask := rfl
@[simp] theorem State.selfCorrect_dbState : (s.selfCorrect).dbState = .none := rfl
@[simp] theorem State.selfCorrect_capacity : (s.selfCorrect).capacity = 0 := rfl
@[simp] theorem State.selfCorrect_writeIdx : (s.selfCorrect).writeIdx = 0 := rfl
@[simp] theorem State.selfCorrect_outBuf : (s.selfCorrect).outBuf = s.outBuf := rfl
@[simp] theorem State.selfCorrect_replyBuf : (s.selfCorrect).replyBuf = s.replyBuf := rfl
@[simp] theorem State.selfCorrect_replyLen : (s.selfCorrect).replyLen = 0 := rfl
@[simp] theorem State.selfCorrect_readIdx : (s.selfCorrect).readIdx = 0 := rfl
@[simp] theorem State.selfCorrect_progress : (s.selfCorrect).progress = s.progress := rfl
@[simp] theorem State.selfCorrect_diag : (s.selfCorrect).diag = s.diag := rfl
@[simp] theorem State.selfCorrect_hcbSize : (s.selfCorrect).hcbSize = s.hcbSize := rfl
@[simp] theorem State.selfCorrect_maxTargets : (s.selfCorrect).maxTargets = s.maxTargets := rfl
@[simp] theorem State.selfCorrect_maxBuses : (s.selfCorrect).maxBuses = s.maxBuses := rfl
@[simp] theorem State.selfCorrect_wwn : (s.selfCorrect).wwn = s.wwn := rfl
@[simp] theorem State.selfCorrect_msixInUse : (s.selfCorrect).msixInUse = s.msixInUse := rfl
@[simp] theorem State.selfCorrect_irqLine : (s.selfCorrect).irqLine = s.irqLine := rfl
@[simp] theorem State.selfCorrect_inputs : (s.selfCorrect).inputs = s.inputs := rfl
@[simp] theorem State.selfCorrect_rdata : (s.selfCorrect).rdata = s.rdata := rfl
@[simp] theorem State.selfCorrect_events : (s.selfCorrect).events = s.events ++ [.violation (.state s.snapshot)] := rfl
@[simp] theorem State.selfCorrect_freeCount : (s.selfCorrect).freeCount = s.freeCount := rfl

/-! ### beginStep -/

@[simp] theorem State.beginStep_cfg (rest : List Input) : (s.beginStep rest).cfg = s.cfg := rfl
@[simp] theorem State.beginStep_life (rest : List Input) : (s.beginStep rest).life = s.life := rfl
@[simp] theorem State.beginStep_opState (rest : List Input) : (s.beginStep rest).opState = s.opState := rfl
@[simp] theorem State.beginStep_intStatus (rest : List Input) : (s.beginStep rest).intStatus = s.intStatus := rfl
@[simp] theorem State.beginStep_intMask (rest : List Input) : (s.beginStep rest).intMask = s.intMask := rfl
@[simp] theorem State.beginStep_dbState (rest : List Input) : (s.beginStep rest).dbState = s.dbState := rfl
@[simp] theorem State.beginStep_capacity (rest : List Input) : (s.beginStep rest).capacity = s.capacity := rfl
@[simp] theorem State.beginStep_writeIdx (rest : List Input) : (s.beginStep rest).writeIdx = s.writeIdx := rfl
@[simp] theorem State.beginStep_outBuf (rest : List Input) : (s.beginStep rest).outBuf = s.outBuf := rfl
@[simp] theorem State.beginStep_replyBuf (rest : List Input) : (s.beginStep rest).replyBuf = s.replyBuf := rfl
@[simp] theorem State.beginStep_replyLen (rest : List Input) : (s.beginStep rest).replyLen = s.replyLen := rfl
@[simp] theorem State.beginStep_readIdx (rest : List Input) : (s.beginStep rest).readIdx = s.readIdx := rfl
@[simp] theorem State.beginStep_progress (rest : List Input) : (s.beginStep rest).progress = s.progress := rfl
@[simp] theorem State.beginStep_diag (rest : List Input) : (s.beginStep rest).diag = s.diag := rfl
@[simp] theorem State.beginStep_hcbSize (rest : List Input) : (s.beginStep rest).hcbSize = s.hcbSize := rfl
@[simp] theorem State.beginStep_maxTargets (rest : List Input) : (s.beginStep rest).maxTargets = s.maxTargets := rfl
@[simp] theorem State.beginStep_maxBuses (rest : List Input) : (s.beginStep rest).maxBuses = s.maxBuses := rfl
@[simp] theorem State.beginStep_wwn (rest : List Input) : (s.beginStep rest).wwn = s.wwn := rfl
@[simp] theorem State.beginStep_msixInUse (rest : List Input) : (s.beginStep rest).msixInUse = s.msixInUse := rfl
@[simp] theorem State.beginStep_irqLine (rest : List Input) : (s.beginStep rest).irqLine = s.irqLine := rfl
@[simp] theorem State.beginStep_inputs (rest : List Input) : (s.beginStep rest).inputs = rest := rfl
@[simp] theorem State.beginStep_rdata (rest : List Input) : (s.beginStep rest).rdata = none := rfl
@[simp] theorem State.beginStep_events (rest : List Input) : (s.beginStep rest).events = [] := rfl
@[simp] theorem State.beginStep_freeCount (rest : List Input) : (s.beginStep rest).freeCount = s.freeCount := rfl

@[simp] theorem State.raiseViolation_eq (v : Violation) : s.raiseViolation v = s.emit (.violation v) := rfl

/-! ### The interrupt evaluation -/

/-- All that `IrqEval()` does: the line and the events. -/
theorem State.irqEval_eq :
    s.irqEval = { s with
      irqLine := lineAfter s.msixInUse s.asserted s.irqLine
      events := s.events ++ irqEvents s.msixInUse s.asserted } := by
  by_cases hm : s.msixInUse = true
  · by_cases ha : s.asserted = true
    · simp only [State.irqEval, lineAfter, irqEvents, if_pos hm, if_pos ha, State.emit]
    · simp only [State.irqEval, lineAfter, irqEvents, if_pos hm, if_neg ha, List.append_nil]
  · simp only [State.irqEval, lineAfter, irqEvents, if_neg hm, State.emit]

@[simp] theorem State.irqEval_cfg : s.irqEval.cfg = s.cfg := by rw [State.irqEval_eq]
@[simp] theorem State.irqEval_life : s.irqEval.life = s.life := by rw [State.irqEval_eq]
@[simp] theorem State.irqEval_opState : s.irqEval.opState = s.opState := by rw [State.irqEval_eq]
@[simp] theorem State.irqEval_intStatus : s.irqEval.intStatus = s.intStatus := by rw [State.irqEval_eq]
@[simp] theorem State.irqEval_intMask : s.irqEval.intMask = s.intMask := by rw [State.irqEval_eq]
@[simp] theorem State.irqEval_dbState : s.irqEval.dbState = s.dbState := by rw [State.irqEval_eq]
@[simp] theorem State.irqEval_capacity : s.irqEval.capacity = s.capacity := by rw [State.irqEval_eq]
@[simp] theorem State.irqEval_writeIdx : s.irqEval.writeIdx = s.writeIdx := by rw [State.irqEval_eq]
@[simp] theorem State.irqEval_outBuf : s.irqEval.outBuf = s.outBuf := by rw [State.irqEval_eq]
@[simp] theorem State.irqEval_replyBuf : s.irqEval.replyBuf = s.replyBuf := by rw [State.irqEval_eq]
@[simp] theorem State.irqEval_replyLen : s.irqEval.replyLen = s.replyLen := by rw [State.irqEval_eq]
@[simp] theorem State.irqEval_readIdx : s.irqEval.readIdx = s.readIdx := by rw [State.irqEval_eq]
@[simp] theorem State.irqEval_progress : s.irqEval.progress = s.progress := by rw [State.irqEval_eq]
@[simp] theorem State.irqEval_diag : s.irqEval.diag = s.diag := by rw [State.irqEval_eq]
@[simp] theorem State.irqEval_hcbSize : s.irqEval.hcbSize = s.hcbSize := by rw [State.irqEval_eq]
@[simp] theorem State.irqEval_maxTargets : s.irqEval.maxTargets = s.maxTargets := by rw [State.irqEval_eq]
@[simp] theorem State.irqEval_maxBuses : s.irqEval.maxBuses = s.maxBuses := by rw [State.irqEval_eq]
@[simp] theorem State.irqEval_wwn : s.irqEval.wwn = s.wwn := by rw [State.irqEval_eq]
@[simp] theorem State.irqEval_msixInUse : s.irqEval.msixInUse = s.msixInUse := by rw [State.irqEval_eq]
@[simp] theorem State.irqEval_irqLine : s.irqEval.irqLine = lineAfter s.msixInUse s.asserted s.irqLine := by rw [State.irqEval_eq]
@[simp] theorem State.irqEval_inputs : s.irqEval.inputs = s.inputs := by rw [State.irqEval_eq]
@[simp] theorem State.irqEval_rdata : s.irqEval.rdata = s.rdata := by rw [State.irqEval_eq]
@[simp] theorem State.irqEval_events : s.irqEval.events = s.events ++ irqEvents s.msixInUse s.asserted := by rw [State.irqEval_eq]
@[simp] theorem State.irqEval_freeCount : s.irqEval.freeCount = s.freeCount := by rw [State.irqEval_eq]

/-- No status bit, no signal (42_interrupt_arbiter.md R140). -/
@[simp] theorem asserted_zero_status (c : Cfg) (m : Word) : c.asserted 0#32 m = false := by simp [Cfg.asserted]

/-- All that raising the doorbell interrupt does. -/
theorem State.raiseDoorbellInterrupt_eq :
    s.raiseDoorbellInterrupt = { s with
      intStatus := s.intStatus ||| s.cfg.hisDoorbell
      irqLine := lineAfter s.msixInUse (s.cfg.asserted (s.intStatus ||| s.cfg.hisDoorbell) s.intMask) s.irqLine
      events := s.events ++ irqEvents s.msixInUse (s.cfg.asserted (s.intStatus ||| s.cfg.hisDoorbell) s.intMask) } := by
  rw [State.raiseDoorbellInterrupt, State.irqEval_eq]
  rfl

/-! ### The resets -/

/-- A second evaluation overrides the line of the first. -/
@[simp] theorem lineAfter_lineAfter (m a b l : Bool) : lineAfter m a (lineAfter m b l) = lineAfter m a l := by
  cases m <;> rfl

/-- All that a soft reset does (70_reset_and_hazards.md R225). -/
theorem State.softReset_eq :
    s.softReset = { s with
      opState := .ready, intStatus := 0, dbState := .none, capacity := 0, writeIdx := 0, outBuf := []
      replyBuf := [], replyLen := 0, readIdx := 0
      irqLine := lineAfter s.msixInUse false s.irqLine
      events := s.events ++ softResetEvents s.cfg s.msixInUse s.intStatus } := by
  simp [State.softReset, State.irqEval_eq, State.asserted, State.emit, softResetEvents]

/-- All that a hard reset does (70_reset_and_hazards.md R226). -/
theorem State.hardReset_eq :
    s.hardReset = { s with
      opState := .ready, intStatus := 0, intMask := s.cfg.initIntMask, dbState := .none, capacity := 0, writeIdx := 0
      outBuf := [], replyBuf := [], replyLen := 0, readIdx := 0, progress := 0, diag := 0
      hcbSize := s.cfg.hcbSizeDefault, maxTargets := s.cfg.maxTargetsDefault, maxBuses := s.cfg.maxBusesDefault
      irqLine := lineAfter s.msixInUse false s.irqLine
      events := s.events ++ softResetEvents s.cfg s.msixInUse s.intStatus } := by
  simp [State.hardReset, State.softReset_eq]

/-- All that a diagnostic reset does (43_diagnostic_unlock.md R162). -/
theorem State.diagResetNow_eq :
    s.diagResetNow = { s with
      opState := .ready, intStatus := 0, dbState := .none, capacity := 0, writeIdx := 0, outBuf := []
      replyBuf := [], replyLen := 0, readIdx := 0, progress := 0, diag := 0, hcbSize := s.cfg.hcbSizeDefault
      irqLine := lineAfter s.msixInUse false s.irqLine
      events := s.events ++ softResetEvents s.cfg s.msixInUse s.intStatus } := by
  simp [State.diagResetNow, State.softReset_eq]

/-! ### Message completion -/

/-- All that entering READ does (41_doorbell_handshake.md R120). -/
theorem State.enterRead_eq (ws : List Half) :
    s.enterRead ws = { s with
      replyBuf := ws, replyLen := ws.length, readIdx := 0, dbState := .read
      intStatus := s.intStatus ||| s.cfg.hisDoorbell
      irqLine := lineAfter s.msixInUse (s.cfg.asserted (s.intStatus ||| s.cfg.hisDoorbell) s.intMask) s.irqLine
      events := s.events ++ irqEvents s.msixInUse (s.cfg.asserted (s.intStatus ||| s.cfg.hisDoorbell) s.intMask) } := by
  rw [State.enterRead, State.raiseDoorbellInterrupt_eq]

/-- Message completion either enters READ with the handler's words or goes back to NONE. -/
theorem State.msgComplete_cases :
    (∃ ws, s.cfg.handler.answer s.outBuf = .words ws ∧ s.msgComplete = s.enterRead ws) ∨
    (s.cfg.handler.answer s.outBuf = .noReply ∧ s.msgComplete = { s with dbState := .none }) := by
  unfold State.msgComplete
  cases s.cfg.handler.answer s.outBuf with
  | noReply => exact .inr ⟨rfl, rfl⟩
  | words ws => exact .inl ⟨ws, rfl, rfl⟩

end Sys2Proof.Machine
end

