-- ==== Sys2Proof/Laws/Ops.lean ====
section
/-! SUPPORT. One lemma per gate that says all it can do: if it answers a next state, then one of these cases holds. -/

namespace Sys2Proof.Machine

variable {s t : State} {k : State → Result} {i : Instr} {f : State → State}

/-- While attached the gate is open. -/
theorem whenAttached_of_attached (h : s.life = .attached) : whenAttached s k = k s := by
  simp only [whenAttached, h]

/-- An operation that needs `LIFE` to be ATTACHED completes only there. -/
theorem whenAttached_next : whenAttached s k = .next t ↔ s.life = .attached ∧ k s = .next t := by
  unfold whenAttached
  cases s.life <;> simp

/-- Detached, an access is refused. -/
theorem whenAttached_of_detached (h : s.life = .detached) : whenAttached s k = .refused .detached := by
  simp only [whenAttached, h]

/-- Halted, an access faults. -/
theorem whenAttached_of_halted (h : s.life = .halted) : whenAttached s k = .fault .halted := by
  simp only [whenAttached, h]

/-- All that a step with no input pending does. -/
theorem idleStep_next : idleStep s = .next t ↔ s.life ≠ .halted ∧ t = s := by
  unfold idleStep
  cases s.life <;> simp [eq_comm]

/-- Halted, even a step with no input pending faults. -/
theorem idleStep_of_halted (h : s.life = .halted) : idleStep s = .fault .halted := by
  simp only [idleStep, h]

/-- The self-corrected state passes the invariant check (41_doorbell_handshake.md R128). -/
@[simp] theorem State.selfCorrect_consistent (s : State) : s.selfCorrect.consistent = true := rfl

/-- In a consistent state the invariant check does nothing. -/
theorem withStateCheck_of_consistent (h : s.consistent = true) : withStateCheck s k = k s := if_pos h

/-- In an inconsistent state of a debug build the block halts. -/
theorem withStateCheck_of_debug (h : s.consistent = false) (hd : s.cfg.debugBuild = true) :
    withStateCheck s k = .next s.raiseFatal := by
  simp [withStateCheck, h, hd]

/-- In an inconsistent state of another build the access goes on from the corrected state. -/
theorem withStateCheck_of_corrected (h : s.consistent = false) (hd : s.cfg.debugBuild = false) :
    withStateCheck s k = k s.selfCorrect := by
  simp [withStateCheck, h, hd]

/-- All the invariant check can do. -/
theorem withStateCheck_cases :
    (s.consistent = true ∧ withStateCheck s k = k s) ∨
    (s.consistent = false ∧ s.cfg.debugBuild = true ∧ withStateCheck s k = .next s.raiseFatal) ∨
    (s.consistent = false ∧ s.cfg.debugBuild = false ∧ withStateCheck s k = k s.selfCorrect) := by
  cases h : s.consistent with
  | true => exact .inl ⟨rfl, withStateCheck_of_consistent h⟩
  | false =>
    cases hd : s.cfg.debugBuild with
    | true => exact .inr (.inl ⟨rfl, rfl, withStateCheck_of_debug h hd⟩)
    | false => exact .inr (.inr ⟨rfl, rfl, withStateCheck_of_corrected h hd⟩)

/-- An operation completes only where its data and the state select it. -/
theorem whenSelected_next :
    whenSelected i s k = .next t ↔ i.selected s.cfg s.position = true ∧ k s = .next t := by
  unfold whenSelected
  split <;> simp_all

/-- Where it is not selected it is refused by name. -/
theorem whenSelected_of_not (h : i.selected s.cfg s.position = false) : whenSelected i s k = .refused .notSelected := by
  simp [whenSelected, h]

/-- A selected doorbell write in a consistent, attached state has its effect. -/
theorem doorbellWrite_completes (ha : s.life = .attached) (hc : s.consistent = true)
    (hs : i.selected s.cfg s.position = true) : doorbellWrite i s f = .next (f s) := by
  simp [doorbellWrite, whenAttached_of_attached ha, withStateCheck_of_consistent hc, whenSelected, hs]

/-- All a doorbell write can do when it completes: its effect, the halt of a debug build, or its effect on the corrected
state. -/
theorem doorbellWrite_next (h : doorbellWrite i s f = .next t) :
    s.life = .attached ∧
    ((s.consistent = true ∧ i.selected s.cfg s.position = true ∧ t = f s) ∨
     (s.consistent = false ∧ s.cfg.debugBuild = true ∧ t = s.raiseFatal) ∨
     (s.consistent = false ∧ s.cfg.debugBuild = false ∧
      i.selected s.cfg s.selfCorrect.position = true ∧ t = f s.selfCorrect)) := by
  obtain ⟨ha, h⟩ := whenAttached_next.mp h
  refine ⟨ha, ?_⟩
  obtain ⟨hc, e⟩ | ⟨hc, hd, e⟩ | ⟨hc, hd, e⟩ := withStateCheck_cases (s := s)
    (k := fun s => whenSelected i s fun s => .next (f s))
  · rw [e] at h
    obtain ⟨hs, h⟩ := whenSelected_next.mp h
    cases h
    exact .inl ⟨hc, hs, rfl⟩
  · rw [e] at h
    cases h
    exact .inr (.inl ⟨hc, hd, rfl⟩)
  · rw [e] at h
    obtain ⟨hs, h⟩ := whenSelected_next.mp h
    cases h
    exact .inr (.inr ⟨hc, hd, by simpa using hs, rfl⟩)

/-- All a write-sequence write can do when it completes: its effect, where it is selected. -/
theorem wrSeqWrite_next :
    wrSeqWrite i s f = .next t ↔ s.life = .attached ∧ i.selected s.cfg s.position = true ∧ t = f s := by
  unfold wrSeqWrite
  rw [whenAttached_next, whenSelected_next]
  constructor
  · rintro ⟨ha, hs, h⟩
    cases h
    exact ⟨ha, hs, rfl⟩
  · rintro ⟨ha, hs, rfl⟩
    exact ⟨ha, hs, rfl⟩

end Sys2Proof.Machine
end

