-- ==== Sys2Proof/Laws/Exec.lean ====
section
/-! SUPPORT. One lemma per operation that says once all it can do: if `exec` answers a next state, then it is this one.
Later proofs cite these and never unfold a meaning. -/

namespace Sys2Proof.Machine

variable {s t : State}

/-- What an operation that starts with the invariant check can do: its effect `f` in a consistent state, the halt of a
debug build, or its effect on the corrected state (41_doorbell_handshake.md R128). -/
def CheckedEffect (s t : State) (f : State → State) : Prop :=
  (s.consistent = true ∧ t = f s) ∨
  (s.consistent = false ∧ s.cfg.debugBuild = true ∧ t = s.raiseFatal) ∨
  (s.consistent = false ∧ s.cfg.debugBuild = false ∧ t = f s.selfCorrect)

/-- The same, for an operation that the value and the state must select. -/
def CheckedSelectedEffect (i : Instr) (s t : State) (f : State → State) : Prop :=
  (s.consistent = true ∧ i.selected s.cfg s.position = true ∧ t = f s) ∨
  (s.consistent = false ∧ s.cfg.debugBuild = true ∧ t = s.raiseFatal) ∨
  (s.consistent = false ∧ s.cfg.debugBuild = false ∧ i.selected s.cfg s.selfCorrect.position = true ∧
    t = f s.selfCorrect)

/-- A gated effect completes exactly while attached. -/
theorem attached_next {f : State → State} :
    whenAttached s (fun s => .next (f s)) = .next t ↔ s.life = .attached ∧ t = f s := by
  rw [whenAttached_next]
  constructor
  · rintro ⟨ha, h⟩
    cases h
    exact ⟨ha, rfl⟩
  · rintro ⟨ha, rfl⟩
    exact ⟨ha, rfl⟩

/-- A gated and checked effect completes only while attached, in the three ways of the check. -/
theorem attached_checked_next {f : State → State}
    (h : whenAttached s (fun s => withStateCheck s fun s => .next (f s)) = .next t) :
    s.life = .attached ∧ CheckedEffect s t f := by
  obtain ⟨ha, h⟩ := whenAttached_next.mp h
  refine ⟨ha, ?_⟩
  obtain ⟨hc, e⟩ | ⟨hc, hd, e⟩ | ⟨hc, hd, e⟩ := withStateCheck_cases (s := s) (k := fun s => .next (f s))
  · rw [e] at h
    cases h
    exact .inl ⟨hc, rfl⟩
  · rw [e] at h
    cases h
    exact .inr (.inl ⟨hc, hd, rfl⟩)
  · rw [e] at h
    cases h
    exact .inr (.inr ⟨hc, hd, rfl⟩)


/-- The effect of an operation once its gates are passed. -/
def effect (i : Instr) (s : State) : State :=
  match i with
  | .rdDoorbell _ => s.readDoorbell
  | .wrDoorbellMur _ _ => s.softReset
  | .wrDoorbellData _ v => s.acceptWord v
  | .wrDoorbellOverrun _ v =>
    { s.raiseViolation (.dbIndex v s.writeIdx s.capacity) with dbState := .none, writeIdx := 0 }
  | .wrDoorbellHandshake _ v => s.startHandshake v
  | .wrDoorbellOtherFn _ v => s.raiseViolation (.dbFunction v)
  | .wrDoorbellInRead _ v => s.raiseViolation (.dbWriteInRead v)
  | .rdWrSeq _ => (s.raiseViolation (.writeOnlyRead s.cfg.offWrSeq)).answer 0
  | .wrWrSeqFlush _ _ => { s with progress := 0, diag := 0 }
  | .wrWrSeqMatch _ _ => s.advanceKey
  | .wrWrSeqMismatch _ v =>
    { s.raiseViolation (.key (s.cfg.key v) s.progress) with progress := 0, diag := s.diag &&& ~~~s.cfg.diagWe }
  | .rdHostDiag _ => s.answer s.diag
  | .wrHostDiag _ v => if s.unlocked then (if hasBit v s.cfg.diagReset then s.diagResetNow else s) else s
  | .rdIntStatus _ => s.answer s.intStatus
  | .wrIntStatus _ _ => s.acknowledge.irqEval
  | .rdIntMask _ => s.answer s.intMask
  | .wrIntMask _ v => State.irqEval { s with intMask := v &&& s.cfg.himWritable }
  | .rdHcbSize _ => s.answer s.hcbSize
  | .wrHcbSize _ v => { s with hcbSize := v }
  | .rdDiagWin off => (s.raiseViolation (.diagWindow (.read off))).answer 0
  | .wrDiagWin off v => s.raiseViolation (.diagWindow (.write off v))
  | .rdUnimpl win off => (s.raiseViolation (offsetViolation s.cfg win off (.read off))).answer 0
  | .wrUnimpl win off v => s.raiseViolation (offsetViolation s.cfg win off (.write off v))
  | .rdBadWidth win off n => (s.raiseViolation (.width .read win off n)).answerZeros n
  | .wrBadWidth win off n _ => s.raiseViolation (.width .write win off n)
  | .evAttach => s.attachNow
  | .evHardReset => s.hardReset
  | .evDetach => s.detachNow

/-! ### One lemma per operation -/

variable {win : Window} {off : Offset} {v : Word} {n : Nat} {data : List Byte}

theorem execRdBadWidth_next :
    exec (.rdBadWidth win off n) s = .next t ↔ s.life = .attached ∧ t = effect (.rdBadWidth win off n) s :=
  attached_next (f := effect (.rdBadWidth win off n))

theorem execWrBadWidth_next :
    exec (.wrBadWidth win off n data) s = .next t ↔ s.life = .attached ∧ t = effect (.wrBadWidth win off n data) s :=
  attached_next (f := effect (.wrBadWidth win off n data))

theorem execRdDiagWin_next :
    exec (.rdDiagWin off) s = .next t ↔ s.life = .attached ∧ t = effect (.rdDiagWin off) s :=
  attached_next (f := effect (.rdDiagWin off))

theorem execWrDiagWin_next :
    exec (.wrDiagWin off v) s = .next t ↔ s.life = .attached ∧ t = effect (.wrDiagWin off v) s :=
  attached_next (f := effect (.wrDiagWin off v))

theorem execRdUnimpl_next :
    exec (.rdUnimpl win off) s = .next t ↔ s.life = .attached ∧ t = effect (.rdUnimpl win off) s :=
  attached_next (f := effect (.rdUnimpl win off))

theorem execWrUnimpl_next :
    exec (.wrUnimpl win off v) s = .next t ↔ s.life = .attached ∧ t = effect (.wrUnimpl win off v) s :=
  attached_next (f := effect (.wrUnimpl win off v))

theorem execRdWrSeq_next :
    exec (.rdWrSeq win) s = .next t ↔ s.life = .attached ∧ t = effect (.rdWrSeq win) s :=
  attached_next (f := effect (.rdWrSeq win))

theorem execRdHostDiag_next :
    exec (.rdHostDiag win) s = .next t ↔ s.life = .attached ∧ t = effect (.rdHostDiag win) s :=
  attached_next (f := effect (.rdHostDiag win))

theorem execWrHostDiag_next :
    exec (.wrHostDiag win v) s = .next t ↔ s.life = .attached ∧ t = effect (.wrHostDiag win v) s :=
  attached_next (f := effect (.wrHostDiag win v))

theorem execRdIntStatus_next :
    exec (.rdIntStatus win) s = .next t ↔ s.life = .attached ∧ t = effect (.rdIntStatus win) s :=
  attached_next (f := effect (.rdIntStatus win))

theorem execRdIntMask_next :
    exec (.rdIntMask win) s = .next t ↔ s.life = .attached ∧ t = effect (.rdIntMask win) s :=
  attached_next (f := effect (.rdIntMask win))

theorem execWrIntMask_next :
    exec (.wrIntMask win v) s = .next t ↔ s.life = .attached ∧ t = effect (.wrIntMask win v) s :=
  attached_next (f := effect (.wrIntMask win v))

theorem execRdHcbSize_next :
    exec (.rdHcbSize win) s = .next t ↔ s.life = .attached ∧ t = effect (.rdHcbSize win) s :=
  attached_next (f := effect (.rdHcbSize win))

theorem execWrHcbSize_next :
    exec (.wrHcbSize win v) s = .next t ↔ s.life = .attached ∧ t = effect (.wrHcbSize win v) s :=
  attached_next (f := effect (.wrHcbSize win v))

theorem execEvHardReset_next :
    exec .evHardReset s = .next t ↔ s.life = .attached ∧ t = effect .evHardReset s :=
  attached_next (f := effect .evHardReset)

theorem execRdDoorbell_next (h : exec (.rdDoorbell win) s = .next t) :
    s.life = .attached ∧ CheckedEffect s t (effect (.rdDoorbell win)) :=
  attached_checked_next h

theorem execWrIntStatus_next (h : exec (.wrIntStatus win v) s = .next t) :
    s.life = .attached ∧ CheckedEffect s t (effect (.wrIntStatus win v)) :=
  attached_checked_next h

theorem execWrDoorbellMur_next (h : exec (.wrDoorbellMur win v) s = .next t) :
    s.life = .attached ∧ CheckedSelectedEffect (.wrDoorbellMur win v) s t (effect (.wrDoorbellMur win v)) :=
  doorbellWrite_next h

theorem execWrDoorbellHandshake_next (h : exec (.wrDoorbellHandshake win v) s = .next t) :
    s.life = .attached ∧ CheckedSelectedEffect (.wrDoorbellHandshake win v) s t (effect (.wrDoorbellHandshake win v)) :=
  doorbellWrite_next h

theorem execWrDoorbellData_next (h : exec (.wrDoorbellData win v) s = .next t) :
    s.life = .attached ∧ CheckedSelectedEffect (.wrDoorbellData win v) s t (effect (.wrDoorbellData win v)) :=
  doorbellWrite_next h

theorem execWrDoorbellOverrun_next (h : exec (.wrDoorbellOverrun win v) s = .next t) :
    s.life = .attached ∧ CheckedSelectedEffect (.wrDoorbellOverrun win v) s t (effect (.wrDoorbellOverrun win v)) :=
  doorbellWrite_next h

theorem execWrDoorbellOtherFn_next (h : exec (.wrDoorbellOtherFn win v) s = .next t) :
    s.life = .attached ∧ CheckedSelectedEffect (.wrDoorbellOtherFn win v) s t (effect (.wrDoorbellOtherFn win v)) :=
  doorbellWrite_next h

theorem execWrDoorbellInRead_next (h : exec (.wrDoorbellInRead win v) s = .next t) :
    s.life = .attached ∧ CheckedSelectedEffect (.wrDoorbellInRead win v) s t (effect (.wrDoorbellInRead win v)) :=
  doorbellWrite_next h

theorem execWrWrSeqFlush_next :
    exec (.wrWrSeqFlush win v) s = .next t ↔
      s.life = .attached ∧ (Instr.wrWrSeqFlush win v).selected s.cfg s.position = true ∧ t = effect (.wrWrSeqFlush win v) s :=
  wrSeqWrite_next (f := effect (.wrWrSeqFlush win v))

theorem execWrWrSeqMatch_next :
    exec (.wrWrSeqMatch win v) s = .next t ↔
      s.life = .attached ∧ (Instr.wrWrSeqMatch win v).selected s.cfg s.position = true ∧ t = effect (.wrWrSeqMatch win v) s :=
  wrSeqWrite_next (f := effect (.wrWrSeqMatch win v))

theorem execWrWrSeqMismatch_next :
    exec (.wrWrSeqMismatch win v) s = .next t ↔
      s.life = .attached ∧ (Instr.wrWrSeqMismatch win v).selected s.cfg s.position = true ∧ t = effect (.wrWrSeqMismatch win v) s :=
  wrSeqWrite_next (f := effect (.wrWrSeqMismatch win v))

theorem execEvAttach_next : exec .evAttach s = .next t ↔ s.life = .detached ∧ t = s.attachNow := by
  simp only [exec, execEvAttach]
  cases s.life <;> simp [eq_comm]

theorem execEvDetach_next : exec .evDetach s = .next t ↔ s.life = .attached ∧ t = effect .evDetach s :=
  attached_next (f := effect .evDetach)

/-- All that an attach does: the state of 70_reset_and_hazards.md R229, whatever was there before. -/
theorem State.attachNow_eq (s : State) :
    s.attachNow =
      { cfg := s.cfg, life := .attached, opState := .ready, intStatus := 0, intMask := s.cfg.initIntMask
        dbState := .none, capacity := 0, writeIdx := 0, outBuf := [], replyBuf := [], replyLen := 0, readIdx := 0
        progress := 0, diag := 0, hcbSize := s.cfg.hcbSizeDefault, maxTargets := s.cfg.maxTargetsDefault
        maxBuses := s.cfg.maxBusesDefault, wwn := s.cfg.identity, msixInUse := s.cfg.usesMsix, irqLine := false
        inputs := s.inputs, rdata := s.rdata, events := s.events ++ softResetEvents s.cfg s.cfg.usesMsix 0
        freeCount := s.freeCount + 1 } := by
  simp only [State.attachNow, State.hardReset_eq, State.undefineElements]
  cases s.cfg.usesMsix <;> rfl

/-- What a detach leaves defined (70_reset_and_hazards.md R228). -/
theorem State.detachNow_keeps (s : State) :
    s.detachNow.life = .detached ∧ s.detachNow.cfg = s.cfg ∧ s.detachNow.inputs = s.inputs ∧
    s.detachNow.rdata = s.rdata ∧
    s.detachNow.events = s.events ++ (if s.msixInUse then [] else [.irqLine false]) ∧
    s.detachNow.freeCount = s.freeCount + 1 := by
  simp only [State.detachNow, State.undefineElements, State.releaseLine]
  cases s.msixInUse <;> simp

/-! ### The case splits inside the effects -/

/-- All that an acknowledge does, before its evaluation (42_interrupt_arbiter.md R144). -/
theorem State.acknowledge_cases (s : State) :
    (s.dbState ≠ .read ∧ s.acknowledge = s.clearDoorbellStatus) ∨
    (s.dbState = .read ∧ s.readIdx = s.replyLen ∧
      s.acknowledge = { s with dbState := .none }.clearDoorbellStatus) ∨
    (s.dbState = .read ∧ s.readIdx ≠ s.replyLen ∧ s.acknowledge = s) := by
  unfold State.acknowledge
  split
  · simp [*]
  · simp [*]
  · by_cases h : s.readIdx = s.replyLen <;> simp [*]

/-- All that accepting a word does (41_doorbell_handshake.md R119). -/
theorem State.acceptWord_cases (s : State) (v : Word) :
    (∃ ws, s.writeIdx + 1 = s.capacity ∧ s.cfg.handler.answer (s.outBuf ++ [v]) = .words ws ∧
      s.acceptWord v = { s with outBuf := s.outBuf ++ [v], writeIdx := s.writeIdx + 1 }.enterRead ws) ∨
    (s.writeIdx + 1 = s.capacity ∧ s.cfg.handler.answer (s.outBuf ++ [v]) = .noReply ∧
      s.acceptWord v = { s with outBuf := s.outBuf ++ [v], writeIdx := s.writeIdx + 1, dbState := .none }) ∨
    (s.writeIdx + 1 ≠ s.capacity ∧
      s.acceptWord v = { s with outBuf := s.outBuf ++ [v], writeIdx := s.writeIdx + 1 }) := by
  simp only [State.acceptWord]
  split
  · next h =>
    obtain ⟨ws, ha, e⟩ | ⟨ha, e⟩ :=
      State.msgComplete_cases { s with outBuf := s.outBuf ++ [v], writeIdx := s.writeIdx + 1 }
    · exact .inl ⟨ws, h, ha, e⟩
    · exact .inr (.inl ⟨h, ha, e⟩)
  · next h => exact .inr (.inr ⟨h, rfl⟩)

/-- All that the expected key does (43_diagnostic_unlock.md R157). -/
theorem State.advanceKey_cases (s : State) :
    (s.progress = 5 ∧ s.advanceKey = { s with progress := 6, diag := s.diag ||| s.cfg.diagWe }) ∨
    (s.progress ≠ 5 ∧ s.advanceKey = { s with progress := s.progress + 1 }) := by
  simp only [State.advanceKey]
  split
  · next h =>
    have hp : s.progress = 5 := by simpa using h
    exact .inl ⟨hp, by rw [hp]⟩
  · next h => exact .inr ⟨by rintro hp; simp [hp] at h, rfl⟩

/-- A doorbell read changes at most the read index, and only while a reply is not drained
(41_doorbell_handshake.md R125). -/
theorem State.readDoorbell_cases (s : State) :
    s.readDoorbell = { s with rdata := s.readDoorbell.rdata } ∨
    (s.dbState = .read ∧ s.readIdx < s.replyLen ∧
      s.readDoorbell = { s with readIdx := s.readIdx + 1, rdata := s.readDoorbell.rdata }) := by
  unfold State.readDoorbell
  split
  · exact .inl rfl
  · exact .inl rfl
  · split
    · exact .inr ⟨‹_›, ‹_›, rfl⟩
    · exact .inl rfl

/-! ### All operations at once -/

/-- When the life of the block lets an operation complete: an attach while DETACHED, any other while ATTACHED, none while
HALTED (10_state.md R30, 70_reset_and_hazards.md R227). -/
def lifeAllows (i : Instr) (s : State) : Prop :=
  (i = .evAttach ∧ s.life = .detached) ∨ (i ≠ .evAttach ∧ s.life = .attached)

/-- All that an operation can do when it completes: its effect, the halt of a debug build by the invariant check, or its
effect on the state the check has corrected. -/
def Completes (i : Instr) (s t : State) : Prop :=
  lifeAllows i s ∧
  ((t = effect i s ∧ i.selected s.cfg s.position = true ∧ (i.op.checksState = true → s.consistent = true)) ∨
   (t = s.raiseFatal ∧ i.op.checksState = true ∧ s.consistent = false ∧ s.cfg.debugBuild = true) ∨
   (t = effect i s.selfCorrect ∧ i.selected s.cfg s.selfCorrect.position = true ∧ i.op.checksState = true ∧
    s.consistent = false ∧ s.cfg.debugBuild = false))

theorem Completes.of_plain {i : Instr} (hi : i ≠ .evAttach) (hs : i.selected s.cfg s.position = true)
    (hk : i.op.checksState = false) (h : s.life = .attached ∧ t = effect i s) : Completes i s t :=
  ⟨.inr ⟨hi, h.1⟩, .inl ⟨h.2, hs, by simp [hk]⟩⟩

theorem Completes.of_checked {i : Instr} (hi : i ≠ .evAttach) (hs : ∀ c p, i.selected c p = true)
    (hk : i.op.checksState = true) (h : s.life = .attached ∧ CheckedEffect s t (effect i)) : Completes i s t := by
  refine ⟨.inr ⟨hi, h.1⟩, ?_⟩
  obtain ⟨hc, e⟩ | ⟨hc, hd, e⟩ | ⟨hc, hd, e⟩ := h.2
  · exact .inl ⟨e, hs _ _, fun _ => hc⟩
  · exact .inr (.inl ⟨e, hk, hc, hd⟩)
  · exact .inr (.inr ⟨e, hs _ _, hk, hc, hd⟩)

theorem Completes.of_selected {i : Instr} (hi : i ≠ .evAttach) (hk : i.op.checksState = true)
    (h : s.life = .attached ∧ CheckedSelectedEffect i s t (effect i)) : Completes i s t := by
  refine ⟨.inr ⟨hi, h.1⟩, ?_⟩
  obtain ⟨hc, hs, e⟩ | ⟨hc, hd, e⟩ | ⟨hc, hd, hs, e⟩ := h.2
  · exact .inl ⟨e, hs, fun _ => hc⟩
  · exact .inr (.inl ⟨e, hk, hc, hd⟩)
  · exact .inr (.inr ⟨e, hs, hk, hc, hd⟩)

theorem Completes.of_wrSeq {i : Instr} (hi : i ≠ .evAttach) (hk : i.op.checksState = false)
    (h : s.life = .attached ∧ i.selected s.cfg s.position = true ∧ t = effect i s) : Completes i s t :=
  .of_plain hi h.2.1 hk ⟨h.1, h.2.2⟩

/-- Whatever operation completes, completes so: the one case split over all operations. -/
theorem exec_completes {i : Instr} (h : exec i s = .next t) : Completes i s t := by
  cases i with
  | rdDoorbell => exact .of_checked nofun (fun _ _ => rfl) rfl (execRdDoorbell_next h)
  | wrDoorbellMur => exact .of_selected nofun rfl (execWrDoorbellMur_next h)
  | wrDoorbellData => exact .of_selected nofun rfl (execWrDoorbellData_next h)
  | wrDoorbellOverrun => exact .of_selected nofun rfl (execWrDoorbellOverrun_next h)
  | wrDoorbellHandshake => exact .of_selected nofun rfl (execWrDoorbellHandshake_next h)
  | wrDoorbellOtherFn => exact .of_selected nofun rfl (execWrDoorbellOtherFn_next h)
  | wrDoorbellInRead => exact .of_selected nofun rfl (execWrDoorbellInRead_next h)
  | rdWrSeq => exact .of_plain nofun rfl rfl (execRdWrSeq_next.mp h)
  | wrWrSeqFlush => exact .of_wrSeq nofun rfl (execWrWrSeqFlush_next.mp h)
  | wrWrSeqMatch => exact .of_wrSeq nofun rfl (execWrWrSeqMatch_next.mp h)
  | wrWrSeqMismatch => exact .of_wrSeq nofun rfl (execWrWrSeqMismatch_next.mp h)
  | rdHostDiag => exact .of_plain nofun rfl rfl (execRdHostDiag_next.mp h)
  | wrHostDiag => exact .of_plain nofun rfl rfl (execWrHostDiag_next.mp h)
  | rdIntStatus => exact .of_plain nofun rfl rfl (execRdIntStatus_next.mp h)
  | wrIntStatus => exact .of_checked nofun (fun _ _ => rfl) rfl (execWrIntStatus_next h)
  | rdIntMask => exact .of_plain nofun rfl rfl (execRdIntMask_next.mp h)
  | wrIntMask => exact .of_plain nofun rfl rfl (execWrIntMask_next.mp h)
  | rdHcbSize => exact .of_plain nofun rfl rfl (execRdHcbSize_next.mp h)
  | wrHcbSize => exact .of_plain nofun rfl rfl (execWrHcbSize_next.mp h)
  | rdDiagWin => exact .of_plain nofun rfl rfl (execRdDiagWin_next.mp h)
  | wrDiagWin => exact .of_plain nofun rfl rfl (execWrDiagWin_next.mp h)
  | rdUnimpl => exact .of_plain nofun rfl rfl (execRdUnimpl_next.mp h)
  | wrUnimpl => exact .of_plain nofun rfl rfl (execWrUnimpl_next.mp h)
  | rdBadWidth => exact .of_plain nofun rfl rfl (execRdBadWidth_next.mp h)
  | wrBadWidth => exact .of_plain nofun rfl rfl (execWrBadWidth_next.mp h)
  | evAttach =>
    obtain ⟨hl, e⟩ := execEvAttach_next.mp h
    exact ⟨.inl ⟨rfl, hl⟩, .inl ⟨e, rfl, nofun⟩⟩
  | evHardReset => exact .of_plain nofun rfl rfl (execEvHardReset_next.mp h)
  | evDetach => exact .of_plain nofun rfl rfl (execEvDetach_next.mp h)

/-- In a consistent state an operation that completes has its effect. -/
theorem exec_effect {i : Instr} (hc : s.consistent = true) (h : exec i s = .next t) :
    lifeAllows i s ∧ t = effect i s ∧ i.selected s.cfg s.position = true := by
  obtain ⟨hl, ⟨e, hs, -⟩ | ⟨-, -, hf, -⟩ | ⟨-, -, -, hf, -⟩⟩ := exec_completes h
  · exact ⟨hl, e, hs⟩
  · simp [hc] at hf
  · simp [hc] at hf

/-- All that a step can do when it completes: nothing, with no input pending and the block not halted, or the operation
that the next input decodes to. -/
theorem step_next (h : step s = .next t) :
    (s.inputs = [] ∧ s.life ≠ .halted ∧ t = s) ∨
    ∃ inp rest i, s.inputs = inp :: rest ∧ decode s.cfg s.decodePosition inp = .ok i ∧
      exec i (s.beginStep rest) = .next t := by
  unfold step at h
  split at h
  · next hi => exact .inl ⟨hi, idleStep_next.mp h⟩
  · next inp rest hi =>
    split at h
    · next i hd => exact .inr ⟨inp, rest, i, hi, hd, h⟩
    · cases h

/-! ### Runs -/

/-- A run over no inputs. -/
theorem deliver_nil (s : State) : deliver s [] = .next { s with inputs := [] } := rfl

/-- A run goes on from the state after its first input. -/
theorem deliver_cons {i : Instr} {inp : Input} {rest : List Input}
    (hd : decode s.cfg s.decodePosition inp = .ok i)
    (he : exec i { s with inputs := rest, rdata := none, events := [] } = .next t) (hr : t.inputs = rest) :
    deliver s (inp :: rest) = deliver t rest := by
  have hd' : decode s.cfg (State.decodePosition { s with inputs := inp :: rest }) inp = .ok i := hd
  have hs : step { s with inputs := inp :: rest } = .next t := by
    simp only [step, hd']
    exact he
  have hc : Sys2Proof.core.step { s with inputs := inp :: rest } = .next t := hs
  show Host.Core.run core (rest.length + 1) { s with inputs := inp :: rest } =
    Host.Core.run core rest.length { t with inputs := rest }
  simp only [Host.Core.run]
  rw [hc, ← hr]

/-- In a consistent state the decoder sees the state's own position. -/
theorem decodePosition_of_consistent (h : s.consistent = true) : s.decodePosition = s.position := by
  simp [State.decodePosition, h]

end Sys2Proof.Machine
end

