-- ==== Sys2Proof/Laws/PerInstr.lean ====
section
/-! SUPPORT. A family of statements with one lemma per operation: under `CFG_REF` the encoder's descriptor of a well-formed
operation matches the operation's row of spec/opcode_table.json, its match and mask written out here from that file. -/

namespace Sys2Proof.Laws.EncodingMatchesTable

/-- The match and mask of the operation's row in spec/opcode_table.json; the three events have none. -/
def tableRow (i : Instr) : Option (BitVec 24 × BitVec 24) :=
  match i with
  | .rdDoorbell _ => some (0x040000, 0xDFFFFF)
  | .wrDoorbellMur _ _ => some (0x840000, 0xDFFFFF)
  | .wrDoorbellData _ _ => some (0x840000, 0xDFFFFF)
  | .wrDoorbellOverrun _ _ => some (0x840000, 0xDFFFFF)
  | .wrDoorbellHandshake _ _ => some (0x840000, 0xDFFFFF)
  | .wrDoorbellOtherFn _ _ => some (0x840000, 0xDFFFFF)
  | .wrDoorbellInRead _ _ => some (0x840000, 0xDFFFFF)
  | .rdWrSeq _ => some (0x040004, 0xDFFFFF)
  | .wrWrSeqFlush _ _ => some (0x840004, 0xDFFFFF)
  | .wrWrSeqMatch _ _ => some (0x840004, 0xDFFFFF)
  | .wrWrSeqMismatch _ _ => some (0x840004, 0xDFFFFF)
  | .rdHostDiag _ => some (0x040008, 0xDFFFFF)
  | .wrHostDiag _ _ => some (0x840008, 0xDFFFFF)
  | .rdIntStatus _ => some (0x040030, 0xDFFFFF)
  | .wrIntStatus _ _ => some (0x840030, 0xDFFFFF)
  | .rdIntMask _ => some (0x040034, 0xDFFFFF)
  | .wrIntMask _ _ => some (0x840034, 0xDFFFFF)
  | .rdHcbSize _ => some (0x040074, 0xDFFFFF)
  | .wrHcbSize _ _ => some (0x840074, 0xDFFFFF)
  | .rdDiagWin _ => some (0x440000, 0xFF0003)
  | .wrDiagWin _ _ => some (0xC40000, 0xFF0003)
  | .rdUnimpl _ _ => some (0x040000, 0xDF0003)
  | .wrUnimpl _ _ _ => some (0x840000, 0xDF0003)
  | .rdBadWidth _ _ _ => some (0x000000, 0x800000)
  | .wrBadWidth _ _ _ _ => some (0x800000, 0x800000)
  | .evAttach => none
  | .evHardReset => none
  | .evDetach => none

/-- An input matches a row: an event has none, a transaction's descriptor under the mask is the match. -/
def matchesRow (inp : Input) (row : Option (BitVec 24 × BitVec 24)) : Prop :=
  match inp, row with
  | .transaction tx _, some (pattern, mask) => tx &&& mask = pattern
  | .transaction _ _, none => False
  | .attach, r => r = none
  | .hardReset, r => r = none
  | .detach, r => r = none

/-- The statement of the family. -/
def Statement (i : Instr) : Prop := i.wellFormed cfgRef = true → matchesRow (encode cfgRef i) (tableRow i)

/-- A window that holds registers is `MEM` or `IO`. -/
theorem holdsRegisters_cases {w : Window} (h : w.holdsRegisters = true) : w = .mem ∨ w = .io := by
  cases w <;> simp_all [Window.holdsRegisters]

/-- The low two bits of an aligned offset are clear. -/
theorem aligned_bits {off : Offset} (h : off.toNat % 4 = 0) : off.getLsbD 0 = false ∧ off.getLsbD 1 = false := by
  constructor <;> simp only [BitVec.getLsbD, Nat.testBit_eq_decide_div_mod_eq, decide_eq_false_iff_not] <;> omega

/-- Masking away an aligned offset leaves the descriptor of offset 0. -/
theorem packTx_masked {off : Offset} (h : off.toNat % 4 = 0) (d : Dir) (w : Window) (n : Nat) (mask : BitVec 24)
    (hm : ∀ i, 2 ≤ i → i < 16 → mask.getLsbD i = false) :
    packTx d w n off &&& mask = packTx d w n 0 &&& mask := by
  obtain ⟨h0, h1⟩ := aligned_bits h
  apply BitVec.eq_of_getLsbD_eq
  intro i hi
  simp only [packTx, BitVec.getLsbD_and, BitVec.getLsbD_append]
  by_cases hlow : i < 16
  · by_cases h2 : 2 ≤ i
    · simp only [hm i h2 hlow, Bool.and_false]
    · have : i = 0 ∨ i = 1 := by omega
      obtain rfl | rfl := this
      · simp only [hlow, h0]
        simp
      · simp only [hlow, h1]
        simp
  · simp only [hlow]
    simp

/-- Under the mask of a bad-width row only the direction is left. -/
theorem packTx_dir (d : Dir) (w : Window) (n : Nat) (off : Offset) :
    packTx d w n off &&& 0x800000#24 = packTx d .mem 0 0 := by
  apply BitVec.eq_of_getLsbD_eq
  intro i hi
  by_cases h : i = 23
  · subst h
    simp only [packTx, BitVec.getLsbD_and, BitVec.getLsbD_append]
    simp
  · have hz : ∀ j, j < 24 → ¬j = 23 → (0x800000#24).getLsbD j = false := by decide
    have hr : ∀ j, j < 24 → ¬j = 23 → (packTx d .mem 0 0).getLsbD j = false := by cases d <;> decide
    rw [BitVec.getLsbD_and, hz i hi h, hr i hi h, Bool.and_false]

/-- The mask of the diagnostic window's rows leaves out bits 15 to 2. -/
theorem mask_diagWin : ∀ i, 2 ≤ i → i < 16 → (0xFF0003#24).getLsbD i = false := by decide

/-- The mask of the catch-all rows of `MEM` and `IO` leaves out bits 15 to 2. -/
theorem mask_unimpl : ∀ i, 2 ≤ i → i < 16 → (0xDF0003#24).getLsbD i = false := by decide

/-- A read of a register through `MEM` or `IO` matches its row. -/
theorem read_matches {win : Window} (h : win.holdsRegisters = true) (r : Reg) :
    packTx .read win 4 (cfgRef.offsetOf r) &&& 0xDFFFFF#24 = packTx .read .mem 4 (cfgRef.offsetOf r) := by
  obtain rfl | rfl := holdsRegisters_cases h <;> cases r <;> decide

/-- A write to a register through `MEM` or `IO` matches its row. -/
theorem write_matches {win : Window} (h : win.holdsRegisters = true) (r : Reg) :
    packTx .write win 4 (cfgRef.offsetOf r) &&& 0xDFFFFF#24 = packTx .write .mem 4 (cfgRef.offsetOf r) := by
  obtain rfl | rfl := holdsRegisters_cases h <;> cases r <;> decide

theorem rdDoorbell (win : Window) : Statement (.rdDoorbell win) := fun h => read_matches h .doorbell
theorem wrDoorbellMur (win : Window) (v : Word) : Statement (.wrDoorbellMur win v) := fun h => write_matches h .doorbell
theorem wrDoorbellData (win : Window) (v : Word) : Statement (.wrDoorbellData win v) :=
  fun h => write_matches h .doorbell
theorem wrDoorbellOverrun (win : Window) (v : Word) : Statement (.wrDoorbellOverrun win v) :=
  fun h => write_matches h .doorbell
theorem wrDoorbellHandshake (win : Window) (v : Word) : Statement (.wrDoorbellHandshake win v) :=
  fun h => write_matches h .doorbell
theorem wrDoorbellOtherFn (win : Window) (v : Word) : Statement (.wrDoorbellOtherFn win v) :=
  fun h => write_matches h .doorbell
theorem wrDoorbellInRead (win : Window) (v : Word) : Statement (.wrDoorbellInRead win v) :=
  fun h => write_matches h .doorbell
theorem rdWrSeq (win : Window) : Statement (.rdWrSeq win) := fun h => read_matches h .wrSeq
theorem wrWrSeqFlush (win : Window) (v : Word) : Statement (.wrWrSeqFlush win v) := fun h => write_matches h .wrSeq
theorem wrWrSeqMatch (win : Window) (v : Word) : Statement (.wrWrSeqMatch win v) := fun h => write_matches h .wrSeq
theorem wrWrSeqMismatch (win : Window) (v : Word) : Statement (.wrWrSeqMismatch win v) :=
  fun h => write_matches h .wrSeq
theorem rdHostDiag (win : Window) : Statement (.rdHostDiag win) := fun h => read_matches h .hostDiag
theorem wrHostDiag (win : Window) (v : Word) : Statement (.wrHostDiag win v) := fun h => write_matches h .hostDiag
theorem rdIntStatus (win : Window) : Statement (.rdIntStatus win) := fun h => read_matches h .intStatus
theorem wrIntStatus (win : Window) (v : Word) : Statement (.wrIntStatus win v) := fun h => write_matches h .intStatus
theorem rdIntMask (win : Window) : Statement (.rdIntMask win) := fun h => read_matches h .intMask
theorem wrIntMask (win : Window) (v : Word) : Statement (.wrIntMask win v) := fun h => write_matches h .intMask
theorem rdHcbSize (win : Window) : Statement (.rdHcbSize win) := fun h => read_matches h .hcbSize
theorem wrHcbSize (win : Window) (v : Word) : Statement (.wrHcbSize win v) := fun h => write_matches h .hcbSize

theorem rdDiagWin (off : Offset) : Statement (.rdDiagWin off) := fun h =>
  (packTx_masked (of_decide_eq_true h) .read .diagWin 4 _ mask_diagWin).trans (by decide)

theorem wrDiagWin (off : Offset) (v : Word) : Statement (.wrDiagWin off v) := fun h =>
  (packTx_masked (of_decide_eq_true h) .write .diagWin 4 _ mask_diagWin).trans (by decide)

theorem rdUnimpl (win : Window) (off : Offset) : Statement (.rdUnimpl win off) := fun h => by
  simp only [Instr.wellFormed, Cfg.isUnimplOperand, Bool.and_eq_true, decide_eq_true_eq] at h
  refine (packTx_masked h.1.2 .read win 4 _ mask_unimpl).trans ?_
  obtain rfl | rfl := holdsRegisters_cases h.1.1 <;> decide

theorem wrUnimpl (win : Window) (off : Offset) (v : Word) : Statement (.wrUnimpl win off v) := fun h => by
  simp only [Instr.wellFormed, Cfg.isUnimplOperand, Bool.and_eq_true, decide_eq_true_eq] at h
  refine (packTx_masked h.1.2 .write win 4 _ mask_unimpl).trans ?_
  obtain rfl | rfl := holdsRegisters_cases h.1.1 <;> decide

theorem rdBadWidth (win : Window) (off : Offset) (n : Nat) : Statement (.rdBadWidth win off n) :=
  fun _ => packTx_dir .read win n off

theorem wrBadWidth (win : Window) (off : Offset) (n : Nat) (data : List Byte) :
    Statement (.wrBadWidth win off n data) := fun _ => packTx_dir .write win n off

theorem evAttach : Statement .evAttach := fun _ => rfl
theorem evHardReset : Statement .evHardReset := fun _ => rfl
theorem evDetach : Statement .evDetach := fun _ => rfl

end Sys2Proof.Laws.EncodingMatchesTable
end

