-- ==== Sys2Proof/Tests/Slice0.lean ====
section
/-! SUPPORT. The model's own tests. Expected values are those of 95_test_vectors.md (its vector names are in the comments)
or hand calculations from the rules named; one small state, one step each. -/

namespace Sys2Proof.Tests

open Sys2Proof.Machine

/-! ## Helpers -/

/-- The next state of an outcome, if it is one. -/
def nextOf (r : Result) : Option State :=
  match r with
  | .next s => some s
  | .fault _ => none
  | .refused _ => none

/-- The next state of one operation from a state. -/
def after (i : Instr) (s : State) : Option State := nextOf (exec i s)

/-- The reset state S0 in the middle of a message of `cap` words, with the words of `out` accepted. -/
def inWrite (cap : Nat) (out : List Word) : State :=
  { State.reset with dbState := .write, capacity := cap, writeIdx := out.length, outBuf := out, intStatus := 1 }

/-- The reset state S0 streaming a reply, `r` words of it read. -/
def inRead (words : List Half) (r : Nat) : State :=
  { State.reset with dbState := .read, replyBuf := words, replyLen := words.length, readIdx := r, intStatus := 1 }

/-- The reset state S0 with a key progress and a diagnostic register. -/
def atKey (p : Nat) (d : Word) : State := { State.reset with progress := p, diag := d }

/-- The reset state S0 with the interrupt mask clear. -/
def unmasked (s : State) : State := { s with intMask := 0 }

/-- The start state X of 95_test_vectors.md section 2.6. -/
def stateX : State :=
  { inRead [1, 2, 3, 4] 1 with intMask := 8, progress := 6, diag := 0x80, hcbSize := 0x4000, irqLine := true }

/-- A state in which the reply index has passed the reply length. -/
def broken : State := inRead [7] 2

/-- A state in which the reply length has passed the reply buffer. -/
def beyondBuffer : State := { inRead [7] 1 with replyLen := 2 }

/-- The state `broken` in a debug build. -/
def brokenDebug : State := { broken with cfg := { cfgRef with debugBuild := true } }

/-- Detached, with nothing known of it. -/
def detached : State := { State.reset with life := .detached, opState := .fault, intStatus := 0xFFFFFFFF, progress := 9 }

/-- Halted. -/
def halted : State := { State.reset with life := .halted }

/-- `CFG_REF` with a handler that never replies. -/
def quietCfg : Cfg := { cfgRef with handler := .silent }

/-- S0 of that configuration. -/
def quiet : State := { State.reset with cfg := quietCfg }

/-! ## Well-formedness: each check refuses an ill-formed term -/

theorem test_wf_register_window : (Instr.rdDoorbell .diagWin).wellFormed cfgRef = false := by decide
theorem test_wf_register_absent_window : (Instr.wrHcbSize .absent 0).wellFormed cfgRef = false := by decide
theorem test_wf_diagWin_alignment : (Instr.rdDiagWin 0x12).wellFormed cfgRef = false := by decide
theorem test_wf_unimpl_alignment : (Instr.rdUnimpl .mem 0x0D).wellFormed cfgRef = false := by decide
theorem test_wf_unimpl_register : (Instr.wrUnimpl .mem 0x30 0).wellFormed cfgRef = false := by decide
theorem test_wf_unimpl_window : (Instr.rdUnimpl .diagWin 0x0C).wellFormed cfgRef = false := by decide
theorem test_wf_badWidth_good : (Instr.rdBadWidth .mem 0x30 4).wellFormed cfgRef = false := by decide
theorem test_wf_badWidth_size : (Instr.rdBadWidth .mem 0x30 32).wellFormed cfgRef = false := by decide
theorem test_wf_badWidth_data : (Instr.wrBadWidth .mem 0x30 2 [0]).wellFormed cfgRef = false := by decide
theorem test_wf_accepts : (Instr.wrBadWidth .mem 0x30 2 [0, 1]).wellFormed cfgRef = true := by decide

theorem test_cfgRef_wf : cfgRef.wf = true := by decide +kernel
theorem test_cfgDocFlush_wf : cfgDocFlush.wf = true := by decide +kernel
theorem test_cfg_offsets : Cfg.wf { cfgRef with offWrSeq := 0x00 } = false := by decide +kernel
theorem test_cfg_fields : Cfg.wf { cfgRef with dbAddMask := 0x01FF0000 } = false := by decide +kernel
theorem test_cfg_used : Cfg.wf { cfgRef with dbUsed := 0x00000001 } = false := by decide +kernel
theorem test_cfg_interrupt : Cfg.wf { cfgRef with himDoorbell := 0x00000002 } = false := by decide +kernel
theorem test_cfg_diag : Cfg.wf { cfgRef with diagReset := 0x00000080 } = false := by decide +kernel
theorem test_cfg_keys : Cfg.wf { cfgRef with kf := 0xF } = false := by decide +kernel
theorem test_cfg_mask : Cfg.wf { cfgRef with initIntMask := 0x40000019 } = false := by decide +kernel

/-! ## Decoding: a word of every operation, written out from 30_encoding.md R71 and 95_test_vectors.md -/

theorem test_decode_rdDoorbell :
    decode cfgRef .start (.transaction 0x240000 []) = .ok (.rdDoorbell .io) := by rfl
theorem test_decode_wrDoorbellMur :
    decode cfgRef .start (.transaction 0x840000 [0xFF, 0xFF, 0xFF, 0x40]) = .ok (.wrDoorbellMur .mem 0x40FFFFFF) := by rfl
theorem test_decode_wrDoorbellData :
    decode cfgRef (inWrite 4 [1]).position (.transaction 0x840000 [0, 0, 0x03, 0x42]) =
      .ok (.wrDoorbellData .mem 0x42030000) := by rfl
theorem test_decode_wrDoorbellOverrun :
    decode cfgRef (inWrite 0 []).position (.transaction 0x840000 [0x78, 0x56, 0x34, 0x12]) =
      .ok (.wrDoorbellOverrun .mem 0x12345678) := by rfl
theorem test_decode_wrDoorbellHandshake :
    decode cfgRef .start (.transaction 0xA40000 [0, 0, 0, 0x42]) = .ok (.wrDoorbellHandshake .io 0x42000000) := by rfl
theorem test_decode_wrDoorbellOtherFn :
    decode cfgRef .start (.transaction 0x840000 [0, 0, 0, 0x41]) = .ok (.wrDoorbellOtherFn .mem 0x41000000) := by rfl
theorem test_decode_wrDoorbellInRead :
    decode cfgRef (inRead [1] 0).position (.transaction 0x840000 [0, 0, 0x01, 0x42]) =
      .ok (.wrDoorbellInRead .mem 0x42010000) := by rfl
theorem test_decode_rdWrSeq : decode cfgRef .start (.transaction 0x040004 []) = .ok (.rdWrSeq .mem) := by rfl
theorem test_decode_wrWrSeqFlush :
    decode cfgRef .start (.transaction 0x840004 [0x10, 0, 0, 0]) = .ok (.wrWrSeqFlush .mem 0x10) := by rfl
theorem test_decode_wrWrSeqMatch :
    decode cfgRef (atKey 5 0).position (.transaction 0x840004 [0x0D, 0, 0, 0]) = .ok (.wrWrSeqMatch .mem 0x0D) := by rfl
theorem test_decode_wrWrSeqMismatch :
    decode cfgRef (atKey 6 0x80).position (.transaction 0x840004 [0x0D, 0, 0, 0]) =
      .ok (.wrWrSeqMismatch .mem 0x0D) := by rfl
theorem test_decode_rdHostDiag : decode cfgRef .start (.transaction 0x040008 []) = .ok (.rdHostDiag .mem) := by rfl
theorem test_decode_wrHostDiag :
    decode cfgRef .start (.transaction 0x840008 [0x84, 0, 0, 0]) = .ok (.wrHostDiag .mem 0x84) := by rfl
theorem test_decode_rdIntStatus : decode cfgRef .start (.transaction 0x040030 []) = .ok (.rdIntStatus .mem) := by rfl
theorem test_decode_wrIntStatus :
    decode cfgRef .start (.transaction 0x840030 [0, 0, 0, 0]) = .ok (.wrIntStatus .mem 0) := by rfl
theorem test_decode_rdIntMask : decode cfgRef .start (.transaction 0x040034 []) = .ok (.rdIntMask .mem) := by rfl
theorem test_decode_wrIntMask :
    decode cfgRef .start (.transaction 0x840034 [0xF6, 0xFF, 0xFF, 0xBF]) = .ok (.wrIntMask .mem 0xBFFFFFF6) := by rfl
theorem test_decode_rdHcbSize : decode cfgRef .start (.transaction 0x040074 []) = .ok (.rdHcbSize .mem) := by rfl
theorem test_decode_wrHcbSize :
    decode cfgRef .start (.transaction 0xA40074 [0xAA, 0, 0, 0]) = .ok (.wrHcbSize .io 0xAA) := by rfl
theorem test_decode_rdDiagWin : decode cfgRef .start (.transaction 0x440008 []) = .ok (.rdDiagWin 8) := by rfl
theorem test_decode_wrDiagWin :
    decode cfgRef .start (.transaction 0xC40004 [0x0F, 0, 0, 0]) = .ok (.wrDiagWin 4 0xF) := by rfl
/-- An offset beyond the 256-byte window names no register (20_memory.md R67). -/
theorem test_decode_rdUnimpl_beyond_io :
    decode cfgRef .start (.transaction 0x240100 []) = .ok (.rdUnimpl .io 0x100) := by rfl
theorem test_decode_wrUnimpl :
    decode cfgRef .start (.transaction 0x8400B0 [0x78, 0x56, 0x34, 0x12]) = .ok (.wrUnimpl .mem 0xB0 0x12345678) := by rfl
theorem test_decode_rdBadWidth_misaligned :
    decode cfgRef .start (.transaction 0x040002 []) = .ok (.rdBadWidth .mem 2 4) := by rfl
theorem test_decode_wrBadWidth :
    decode cfgRef .start (.transaction 0x810004 [0x0F]) = .ok (.wrBadWidth .mem 4 1 [0x0F]) := by rfl
theorem test_decode_events :
    decode cfgRef .start .attach = .ok .evAttach ∧ decode cfgRef .start .hardReset = .ok .evHardReset ∧
    decode cfgRef .start .detach = .ok .evDetach := ⟨rfl, rfl, rfl⟩
/-- Code 3 of the window field (assumption 6). -/
theorem test_decode_absent_window :
    decode cfgRef .start (.transaction 0x640000 []) = .ok (.rdBadWidth .absent 0 4) := by rfl
theorem test_decode_rejects : decode cfgRef .start (.transaction 0x840030 [0, 0]) = .error .dataLength := by rfl

/-- The table's numbers: the descriptor in bits 23..0, the data above it. -/
theorem test_table_read : decodeTableWord 24 0x040074 = some (.rdHcbSize .mem) := by rfl
theorem test_table_write_no_data : decodeTableWord 24 0x840004 = some (.wrWrSeqFlush .mem 0) := by rfl
theorem test_table_write : decodeTableWord 56 0x42020000840000 = some (.wrDoorbellHandshake .mem 0x42020000) := by rfl
theorem test_table_wide : decodeTableWord 24 0x9F0001 =
    some (.wrBadWidth .mem 1 31 (List.replicate 31 0)) := by rfl

/-! ## The doorbell -/

/-- DB1, RF7. -/
theorem test_rdDoorbell_none :
    (after (.rdDoorbell .mem) State.reset).map (·.rdata) = some (some [0x01, 0, 0, 0]) := by rfl
/-- T8: the second line of its run. -/
theorem test_rdDoorbell_read : (after (.rdDoorbell .mem) (inRead [0x1234] 0)).map (fun t => (t.rdata, t.readIdx)) =
    some (some [0x34, 0x12, 0x00, 0x08], 1) := by rfl
/-- RS5: the first evaluation is made under `RESET_MASK`. -/
theorem test_mur_reset_mask :
    (after (.wrDoorbellMur .mem 0x40000000) { stateX with cfg := { cfgRef with resetMask := 0 } }).map (·.events) =
      some [.irqLine true, .transportReset, .irqLine false] := by rfl
/-- RS1. -/
theorem test_mur_keeps : (after (.wrDoorbellMur .mem 0x40000000) stateX).map
      (fun t => (t.intMask, t.progress, t.diag, t.hcbSize, t.intStatus, t.irqLine)) =
    some (8, 6, 0x80, 0x4000, 0, false) := by rfl
/-- DB3, DB5. -/
theorem test_handshake : (after (.wrDoorbellHandshake .mem 0x4204BEEF) (unmasked State.reset)).map
      (fun t => (t.dbState, t.capacity, t.writeIdx, t.intStatus, t.events)) =
    some (.write, 4, 0, 1, [.irqLine true]) := by rfl
/-- DB6: a capacity of 0. -/
theorem test_handshake_zero : (after (.wrDoorbellHandshake .mem 0x42000000) State.reset).map
      (fun t => (t.dbState, t.capacity, t.events)) = some (.write, 0, [.irqLine false]) := by rfl
/-- DB17. -/
theorem test_data_completes : (after (.wrDoorbellData .mem 0xFFFF0000) (inWrite 1 [])).map
      (fun t => (t.dbState, t.replyBuf, t.replyLen, t.readIdx, t.intStatus)) =
    some (.read, [0x0000, 0xFFFF], 2, 0, 1) := by rfl
/-- DB20. -/
theorem test_data_no_reply : (after (.wrDoorbellData .mem 5) { inWrite 1 [] with cfg := quietCfg }).map
      (fun t => (t.dbState, t.outBuf, t.writeIdx, t.intStatus, t.events)) = some (.none, [5], 1, 1, []) := by rfl
/-- DB8. -/
theorem test_overrun : (after (.wrDoorbellOverrun .mem 0x12345678) (inWrite 0 [])).map
      (fun t => (t.dbState, t.intStatus, t.events)) =
    some (.none, 1, [.violation (.dbIndex 0x12345678 0 0)]) := by rfl
/-- DB12. -/
theorem test_otherFn : (after (.wrDoorbellOtherFn .mem 0) State.reset).map (fun t => (t.dbState, t.events)) =
    some (.none, [.violation (.dbFunction 0)]) := by rfl
/-- DB19. -/
theorem test_inRead : (after (.wrDoorbellInRead .mem 0x42010000) (inRead [0, 0xFFFF] 0)).map
      (fun t => (t.dbState, t.readIdx, t.events)) =
    some (.read, 0, [.violation (.dbWriteInRead 0x42010000)]) := by rfl
/-- R128 and R200: a debug build halts with no answer; another build corrects and answers from the corrected state. -/
theorem test_check_debug : (after (.rdDoorbell .mem) brokenDebug).map (fun t => (t.life, t.rdata, t.events)) =
    some (.halted, none, [.fatal .state]) := by rfl
theorem test_check_corrects : (after (.rdDoorbell .mem) broken).map
      (fun t => (t.dbState, t.readIdx, t.replyLen, t.rdata)) = some (.none, 0, 0, some [0x01, 0, 0, 0]) := by rfl

/-! ## The interrupt arbiter -/

/-- T2, four of its vectors. -/
theorem test_asserted : cfgRef.asserted 0x00000009 0x00000001 = true ∧ cfgRef.asserted 0x80000000 0 = false ∧
    cfgRef.asserted 0xFFFFFFFF 0x7FFFFFFF = false ∧ cfgRef.asserted 0x00000002 0x40000009 = true := by decide
/-- IRQ7. -/
theorem test_rdIntStatus : (after (.rdIntStatus .mem) { State.reset with intStatus := 1 }).map (·.rdata) =
    some (some [1, 0, 0, 0]) := by rfl
/-- IRQ11: refused, the line stays up. -/
theorem test_wrIntStatus_refused : (after (.wrIntStatus .mem 0) (unmasked (inRead [1, 2] 1))).map
      (fun t => (t.dbState, t.intStatus, t.events)) = some (.read, 1, [.irqLine true]) := by rfl
/-- IRQ12. -/
theorem test_wrIntStatus_drained : (after (.wrIntStatus .mem 0) (unmasked (inRead [1, 2] 2))).map
      (fun t => (t.dbState, t.intStatus, t.events)) = some (.none, 0, [.irqLine false]) := by rfl
/-- IRQ2. -/
theorem test_rdIntMask : (after (.rdIntMask .mem) State.reset).map (·.rdata) = some (some [0x09, 0, 0, 0x40]) := by rfl
/-- The example of R146. -/
theorem test_wrIntMask : (after (.wrIntMask .mem 0xFFFFFFF6) { State.reset with intStatus := 1 }).map
      (fun t => (t.intMask, t.irqLine)) = some (0x40000000, true) := by rfl
/-- IRQ14: in MSI-X mode the line stays down. -/
theorem test_wrIntMask_msix :
    (after (.wrIntMask .mem 0) { State.reset with intStatus := 1, msixInUse := true }).map
      (fun t => (t.irqLine, t.events)) = some (false, [.msixNotify 0]) := by rfl

/-! ## The diagnostic sequencer -/

/-- DG10: a flush locks the device again. -/
theorem test_flush : (after (.wrWrSeqFlush .mem 0) (atKey 6 0x80)).map (fun t => (t.progress, t.diag, t.events)) =
    some (0, 0, []) := by rfl
/-- DG2. -/
theorem test_match_first : (after (.wrWrSeqMatch .mem 0xFFFFFFFF) State.reset).map (fun t => (t.progress, t.diag)) =
    some (1, 0) := by rfl
/-- DG8. -/
theorem test_match_sixth : (after (.wrWrSeqMatch .mem 0x0D) (atKey 5 0)).map (fun t => (t.progress, t.diag)) =
    some (6, 0x80) := by rfl
/-- DG6: the first key again is no first key. -/
theorem test_mismatch : (after (.wrWrSeqMismatch .mem 0xF) (atKey 2 0)).map (fun t => (t.progress, t.events)) =
    some (0, [.violation (.key 0xF 2)]) := by rfl
/-- DG9. -/
theorem test_mismatch_locks : (after (.wrWrSeqMismatch .mem 0xD) (atKey 6 0x80)).map
      (fun t => (t.progress, t.diag, t.events)) = some (0, 0, [.violation (.key 0xD 6)]) := by rfl
/-- DG11. -/
theorem test_rdWrSeq : (after (.rdWrSeq .mem) (atKey 6 0x80)).map (fun t => (t.rdata, t.progress, t.events)) =
    some (some [0, 0, 0, 0], 6, [.violation (.writeOnlyRead 4)]) := by rfl
/-- DG12. -/
theorem test_rdHostDiag : (after (.rdHostDiag .mem) (atKey 6 0x80)).map (·.rdata) = some (some [0x80, 0, 0, 0]) := by rfl
/-- DG16: locked, the write-enable bit cannot be written. -/
theorem test_wrHostDiag_locked : after (.wrHostDiag .mem 0x84) State.reset = some State.reset := by rfl
/-- RS2. -/
theorem test_wrHostDiag_resets : (after (.wrHostDiag .mem 4) stateX).map
      (fun t => (t.progress, t.diag, t.hcbSize, t.intMask, t.dbState)) = some (0, 0, 0x00010000, 8, .none) := by rfl

/-! ## The rest of the register file and the decoder's own operations -/

/-- RF1. -/
theorem test_rdHcbSize : (after (.rdHcbSize .mem) State.reset).map (·.rdata) = some (some [0, 0, 1, 0]) := by rfl
/-- RF2. -/
theorem test_wrHcbSize : (after (.wrHcbSize .mem 0xFFFFFFFF) State.reset).map (·.hcbSize) = some 0xFFFFFFFF := by rfl
/-- DEC8: a narrow read consumes no reply word. -/
theorem test_rdBadWidth : (after (.rdBadWidth .mem 0 2) (inRead [1, 2] 0)).map (fun t => (t.rdata, t.readIdx, t.events)) =
    some (some [0, 0], 0, [.violation (.width .read .mem 0 2)]) := by rfl
/-- DEC7: a narrow write is no reset. -/
theorem test_wrBadWidth : (after (.wrBadWidth .mem 0 2 [0, 0x40]) (inRead [1, 2] 0)).map
      (fun t => (t.dbState, t.events)) = some (.read, [.violation (.width .write .mem 0 2)]) := by rfl
/-- DEC10. -/
theorem test_rdDiagWin : (after (.rdDiagWin 0) State.reset).map (fun t => (t.rdata, t.events)) =
    some (some [0, 0, 0, 0], [.violation (.diagWindow (.read 0))]) := by rfl
/-- DEC11: unlocked, the same offset of the diagnostic window resets nothing. -/
theorem test_wrDiagWin : (after (.wrDiagWin 8 4) (atKey 6 0x80)).map (fun t => (t.progress, t.events)) =
    some (6, [.violation (.diagWindow (.write 8 4))]) := by rfl
/-- DEC13. -/
theorem test_rdUnimpl_known : (after (.rdUnimpl .mem 0xC0) State.reset).map (fun t => (t.rdata, t.events)) =
    some (some [0, 0, 0, 0], [.violation (.unimplemented (.read 0xC0))]) := by rfl
/-- DEC15. -/
theorem test_rdUnimpl_unknown : (after (.rdUnimpl .mem 0x1000) State.reset).map (·.events) =
    some [.violation (.unknownOffset (.read 0x1000))] := by rfl
/-- DEC14. -/
theorem test_wrUnimpl : (after (.wrUnimpl .mem 0xB0 0x12345678) State.reset).map (·.events) =
    some [.violation (.unimplemented (.write 0xB0 0x12345678))] := by rfl

/-! ## The fabric events -/

/-- 95_test_vectors.md section 0.2: whatever was there before. -/
theorem test_attach : (after .evAttach detached).map (fun t => (t.life, t.opState, t.intStatus, t.progress, t.wwn)) =
    some (.attached, .ready, 0, 0, 0x5000000000000001) := by rfl
/-- IRQ17. -/
theorem test_attach_msix :
    (after .evAttach { detached with cfg := { cfgRef with msixAvailable := true, fabricMsix := true } }).map
      (fun t => (t.msixInUse, t.irqLine, t.events)) = some (true, false, [.transportReset]) := by rfl
/-- RS3: S0 exactly, and the three events. -/
theorem test_hardReset : after .evHardReset stateX =
    some { State.reset with events := [.irqLine false, .transportReset, .irqLine false] } := by rfl
/-- RS4. -/
theorem test_detach : (after .evDetach stateX).map (fun t => (t.life, t.events)) =
    some (.detached, [.irqLine false]) := by rfl
/-- R30, R200: a halted block has no step, a detach included. -/
theorem test_detach_halted : exec .evDetach halted = .fault .halted := by rfl

/-! ## The step -/

/-- DEC22, R200, R211: detached and halted there is no step; with no input the block is idle. -/
theorem test_step_detached : step (detached.withFetchWord 24 0x040000) = .refused .detached := by rfl
theorem test_step_halted : step (halted.withFetchWord 24 0x040000) = .fault .halted := by rfl
theorem test_step_idle : step State.reset = .next State.reset ∧ step halted = .fault .halted := ⟨by rfl, by rfl⟩
/-- P1 line 2. -/
theorem test_step_read : (nextOf (step (State.reset.withFetchWord 24 0x040000))).map (fun t => (t.rdata, t.inputs)) =
    some (some [0x01, 0, 0, 0], []) := by rfl
/-- R202 item 5: the decoder sees the corrected state, so a handshake request in a broken READ starts a handshake. -/
theorem test_step_corrected :
    (nextOf (step { broken with inputs := [.transaction 0x840000 [0, 0, 1, 0x42]] })).map
      (fun t => (t.dbState, t.capacity)) = some (.write, 1) := by rfl

/-! ## Witnesses: a state and operands that meet the hypotheses of each statement, clause by clause -/

/-- The handler that never replies bounds its replies. -/
theorem quiet_wf : quiet.cfg.WF := ⟨by decide +kernel, fun _ _ _ h => nomatch h⟩

/-- S0 with that handler has the invariants. -/
theorem quiet_inv : Inv quiet :=
  ⟨by decide, fun _ =>
    { writeIdx_le := by decide, readIdx_le := by decide, capacity_le := by decide, outBuf_length := nofun,
      write_open := nofun, read_status := nofun, replyLen_eq := rfl, replyLen_le := by decide, progress_le := by decide,
      unlocked_iff := by decide, diag_only := by decide, mask_only := by decide, status_only := by decide,
      line_level := by decide, opState_ready := rfl, limits := ⟨rfl, rfl⟩, identity := rfl, delivery := rfl }⟩

/-- So has the same block unlocked, in the middle of a reply. -/
theorem quiet_read_inv : AttachedInv { quiet with
    dbState := .read, intStatus := 1, replyBuf := [5], replyLen := 1, progress := 6, diag := 0x80 } where
  writeIdx_le := by decide
  readIdx_le := by decide
  capacity_le := by decide
  outBuf_length := nofun
  write_open := nofun
  read_status := fun _ => by decide
  replyLen_eq := rfl
  replyLen_le := by decide
  progress_le := by decide
  unlocked_iff := by decide
  diag_only := by decide
  mask_only := by decide
  status_only := by decide
  line_level := by decide
  opState_ready := rfl
  limits := ⟨rfl, rfl⟩
  identity := rfl
  delivery := rfl

theorem witness_StepRunsDecodedOperation :
    (State.reset.withFetchWord 24 0x040000).inputs = .transaction 0x040000 [] :: [] ∧
    decode State.reset.cfg State.reset.decodePosition (.transaction 0x040000 []) = .ok (.rdDoorbell .mem) ∧
    State.reset.inputs = [] ∧ State.reset.life ≠ .halted ∧ halted.inputs = [] ∧ halted.life = .halted :=
  ⟨rfl, rfl, rfl, nofun, rfl, rfl⟩

theorem witness_DecodeInvertsEncode :
    cfgRef.wf = true ∧ (Instr.wrDoorbellData .io 0xFFFFFFFF).wellFormed cfgRef = true ∧
    (Instr.wrDoorbellData .io 0xFFFFFFFF).selected cfgRef (inWrite 255 []).position = true := by decide +kernel

theorem witness_EncodeInvertsDecode :
    decode cfgRef .start (.transaction 0x9FFFFF (List.replicate 31 0xFF)) =
      .ok (.wrBadWidth .mem 0xFFFF 31 (List.replicate 31 0xFF)) := by rfl

theorem witness_DecodeTakesFirstMatchingRow :
    cfgRef.wf = true ∧
    decode cfgRef .start (.transaction 0x840000 (bytesOfWord 0x42020000)) =
      .ok (.wrDoorbellHandshake .mem 0x42020000) := ⟨by decide +kernel, rfl⟩

theorem witness_TransactionSelectsExactlyOneOperation :
    cfgRef.wf = true ∧ (Input.transaction 0x840034 [1, 2, 3, 4]).isTransaction = true := by decide +kernel

theorem witness_BadWidthAccessOnlyLogs :
    stateX.life = .attached ∧
    (Input.transaction 0x820000 [0, 0x40]).isTransaction = true ∧ txSize 0x820000 ≠ 4 ∧
    (Input.transaction 0x040003 []).isTransaction = true ∧ (txOffset 0x040003).toNat % 4 ≠ 0 ∧
    (Input.transaction 0x400000 []).isTransaction = true ∧ txSize 0x400000 = 0 := by decide

/-- Clause by clause: reset in any state; WRITE one below and at the capacity; NONE with and without the handshake
function; READ. -/
theorem witness_DoorbellWriteDecodesInOrder :
    cfgRef.wf = true ∧ cfgRef.fn 0x40FFFFFF = cfgRef.fnMur ∧ cfgRef.fn 0x42000000 ≠ cfgRef.fnMur ∧
    ((inWrite 2 [1]).position.dbState = .write ∧ (inWrite 2 [1]).position.writeIdx < (inWrite 2 [1]).position.capacity) ∧
    ((inWrite 1 [1]).position.dbState = .write ∧ ¬ (inWrite 1 [1]).position.writeIdx < (inWrite 1 [1]).position.capacity) ∧
    (Position.start.dbState = .none ∧ cfgRef.fn 0x42000000 = cfgRef.fnHandshake) ∧
    cfgRef.fn 0x41000000 ≠ cfgRef.fnHandshake ∧ (inRead [] 0).position.dbState = .read := by decide +kernel

theorem witness_MalformedInputRefused :
    (Input.transaction 0x040000 [0]).isTransaction = false ∧
    (Input.transaction 0x840000 [0, 0, 0]).isTransaction = false := by decide

theorem witness_StepKeepsInvariant :
    quiet.cfg.WF ∧ Inv quiet ∧ ∃ t, step quiet = .next t := ⟨quiet_wf, quiet_inv, _, rfl⟩

theorem witness_StepKeepsConfiguration : ∃ t, step (stateX.withFetchWord 24 0x040000) = .next t := ⟨_, rfl⟩

theorem witness_NoInputYieldsFatal :
    Inv { quiet with inputs := [.hardReset] } ∧ ({ quiet with inputs := [.hardReset] } : State).inputs ≠ [] ∧
    ∃ t, step { quiet with inputs := [.hardReset] } = .next t :=
  ⟨⟨by decide, fun h => { quiet_inv.2 h with }⟩, nofun, _, rfl⟩

/-- Passing the check; failing it in a build that corrects itself; failing it in a debug build. -/
theorem witness_AttachedBlockAlwaysSteps :
    stateX.life = .attached ∧ (Input.transaction 0x9F0001 (List.replicate 31 0)).isTransaction = true ∧
    stateX.consistent = true ∧ broken.life = .attached ∧ broken.consistent = false ∧ broken.cfg.debugBuild = false ∧
    brokenDebug.life = .attached ∧ Input.hardReset ≠ .detach := by decide

/-- The four cases; in READ one below and at the end of the reply, and below its length beyond the buffer. -/
theorem witness_DoorbellReadEffect :
    State.reset.life = .attached ∧ State.reset.consistent = true ∧ State.reset.dbState = .none ∧
    (inWrite 1 []).consistent = true ∧ (inWrite 1 []).dbState = .write ∧
    (inRead [8, 9] 1).consistent = true ∧ (inRead [8, 9] 1).readIdx < (inRead [8, 9] 1).replyLen ∧
    (inRead [8, 9] 1).replyBuf[(inRead [8, 9] 1).readIdx]? = some 9 ∧
    (inRead [8, 9] 2).consistent = true ∧ ¬ (inRead [8, 9] 2).readIdx < (inRead [8, 9] 2).replyLen ∧
    beyondBuffer.life = .attached ∧ beyondBuffer.consistent = true ∧ beyondBuffer.dbState = .read ∧
    beyondBuffer.readIdx < beyondBuffer.replyLen ∧ beyondBuffer.replyBuf[beyondBuffer.readIdx]? = none := by decide

theorem witness_MessageUnitResetEffect :
    stateX.life = .attached ∧ stateX.consistent = true ∧ stateX.cfg.fn 0x40000000 = stateX.cfg.fnMur := by decide

theorem witness_HandshakeStartEffect :
    State.reset.life = .attached ∧ State.reset.consistent = true ∧ State.reset.dbState = .none ∧
    State.reset.cfg.fn 0x42FFFFFF = State.reset.cfg.fnHandshake ∧
    State.reset.cfg.fnHandshake ≠ State.reset.cfg.fnMur := by decide

theorem witness_DataWordAppended :
    (inWrite 2 []).life = .attached ∧ (inWrite 2 []).consistent = true ∧ (inWrite 2 []).dbState = .write ∧
    (inWrite 2 []).cfg.fn 0x42000000 ≠ (inWrite 2 []).cfg.fnMur ∧
    (inWrite 2 []).writeIdx + 1 < (inWrite 2 []).capacity := by decide

/-- With a reply and without one. -/
theorem witness_LastWordCompletesMessage :
    (inWrite 2 [6]).life = .attached ∧ (inWrite 2 [6]).consistent = true ∧ (inWrite 2 [6]).dbState = .write ∧
    (inWrite 2 [6]).cfg.fn 7 ≠ (inWrite 2 [6]).cfg.fnMur ∧ (inWrite 2 [6]).writeIdx + 1 = (inWrite 2 [6]).capacity ∧
    (inWrite 2 [6]).cfg.handler.answer [6, 7] = .words [6, 0, 7, 0] ∧
    quietCfg.handler.answer [6, 7] = .noReply := by decide

theorem witness_OverrunReturnsToNone :
    (inWrite 0 []).life = .attached ∧ (inWrite 0 []).consistent = true ∧ (inWrite 0 []).dbState = .write ∧
    (inWrite 0 []).cfg.fn 0x42020000 ≠ (inWrite 0 []).cfg.fnMur ∧
    (inWrite 0 []).capacity ≤ (inWrite 0 []).writeIdx := by decide

theorem witness_IgnoredDoorbellWritesOnlyLog :
    (State.reset.consistent = true ∧ State.reset.cfg.fn 0x41000000 ≠ State.reset.cfg.fnMur ∧
      State.reset.dbState = .none ∧ State.reset.cfg.fn 0x41000000 ≠ State.reset.cfg.fnHandshake) ∧
    ((inRead [1] 0).life = .attached ∧ (inRead [1] 0).consistent = true ∧ (inRead [1] 0).dbState = .read ∧
      (inRead [1] 0).cfg.fn 0x42010000 ≠ (inRead [1] 0).cfg.fnMur) := by decide

theorem witness_FailedStateCheckHaltsOrCorrects :
    broken.life = .attached ∧ (Instr.wrIntStatus .mem 0).op.checksState = true ∧ ¬ broken.readIdx ≤ broken.replyLen ∧
    broken.cfg.debugBuild = false ∧ brokenDebug.life = .attached ∧ ¬ brokenDebug.readIdx ≤ brokenDebug.replyLen ∧
    brokenDebug.cfg.debugBuild = true := by decide

theorem witness_UnselectedWritesRefused :
    ((Instr.wrDoorbellData .mem 1).op.isDoorbellWrite = true ∧ State.reset.consistent = true ∧
      (Instr.wrDoorbellData .mem 1).selected State.reset.cfg State.reset.position = false) ∧
    ((Instr.wrWrSeqMatch .mem 0).op.isWrSeqWrite = true ∧
      (Instr.wrWrSeqMatch .mem 0).selected State.reset.cfg State.reset.position = false) := by decide

theorem witness_IrqEvalDeliversSignal :
    ({ State.reset with msixInUse := true, intStatus := 1, intMask := 0 } : State).cfg.asserted 1 0 = true ∧
    ({ State.reset with msixInUse := true } : State).cfg.asserted 0 0x40000009 = false ∧
    State.reset.msixInUse = false := by decide

theorem witness_RegisterReadsAnswerStorage : stateX.life = .attached := rfl

/-- NONE, READ drained, READ not drained by one word. -/
theorem witness_StatusWriteAcknowledges :
    (State.reset.life = .attached ∧ State.reset.consistent = true ∧ State.reset.dbState ≠ .read) ∧
    ((inRead [1, 2] 2).consistent = true ∧ (inRead [1, 2] 2).dbState = .read ∧
      (inRead [1, 2] 2).readIdx = (inRead [1, 2] 2).replyLen) ∧
    ((inRead [1, 2] 1).consistent = true ∧ (inRead [1, 2] 1).readIdx ≠ (inRead [1, 2] 1).replyLen) := by decide

theorem witness_MaskWriteStoresMaskableBits : stateX.life = .attached := rfl

theorem witness_OnlyCallSitesDriveInterrupt :
    (∃ t, exec (.rdWrSeq .mem) stateX = .next t) ∧ (Instr.rdWrSeq .mem).op ∉ [Op.wrDoorbellMur, .wrDoorbellHandshake,
      .wrDoorbellData, .wrIntStatus, .wrIntMask, .wrHostDiag, .evAttach, .evHardReset, .evDetach] :=
  ⟨⟨_, rfl⟩, by decide⟩

theorem witness_FlushClearsProgress :
    (atKey 6 0x80).life = .attached ∧ (atKey 6 0x80).cfg.key 0xFFFFFFF0 = (atKey 6 0x80).cfg.kf := by decide

/-- The first key, and the sixth. -/
theorem witness_MatchingKeyAdvances :
    (atKey 0 0).life = .attached ∧ (atKey 0 0).cfg.key 0xF ≠ (atKey 0 0).cfg.kf ∧
    (atKey 0 0).cfg.keys.toList[(atKey 0 0).progress]? = some ((atKey 0 0).cfg.key 0xF) ∧ (atKey 0 0).progress < 5 ∧
    (atKey 5 0).cfg.key 0xD ≠ (atKey 5 0).cfg.kf ∧
    (atKey 5 0).cfg.keys.toList[(atKey 5 0).progress]? = some ((atKey 5 0).cfg.key 0xD) ∧
    (atKey 5 0).progress = 5 := by decide

/-- A wrong key, and any key at progress 6. -/
theorem witness_MismatchingKeyResets :
    (atKey 2 0).life = .attached ∧ (atKey 2 0).cfg.key 0xF ≠ (atKey 2 0).cfg.kf ∧
    (atKey 2 0).cfg.keys.toList[(atKey 2 0).progress]? ≠ some ((atKey 2 0).cfg.key 0xF) ∧
    (atKey 6 0x80).cfg.keys.toList[(atKey 6 0x80).progress]? ≠ some ((atKey 6 0x80).cfg.key 0xD) := by decide

theorem witness_WrSeqReadAnswersZero : (atKey 3 0).life = .attached := rfl

theorem witness_HostDiagReadAnswersDiag :
    quiet.life = .attached ∧ quiet.cfg.wf = true ∧ AttachedInv quiet := ⟨rfl, quiet_wf.1, quiet_inv.2 rfl⟩

/-- Locked; unlocked without the reset bit; unlocked with it. -/
theorem witness_HostDiagWriteGated :
    (State.reset.life = .attached ∧ State.reset.diag &&& State.reset.cfg.diagWe = 0) ∧
    (stateX.life = .attached ∧ stateX.diag &&& stateX.cfg.diagWe ≠ 0 ∧ 0x80#32 &&& stateX.cfg.diagReset = 0) ∧
    0xFFFFFFFF#32 &&& stateX.cfg.diagReset ≠ 0 := by decide

theorem witness_DiagResetNeedsSixKeys :
    ∃ s : State, AttachedInv s ∧ ∃ t, exec (.wrHostDiag .mem 4) s = .next t ∧ t ≠ s :=
  ⟨_, quiet_read_inv, _, rfl, fun h => nomatch congrArg State.dbState h⟩

theorem witness_ProgressMovesOnlyByKeysAndResets :
    ∃ t, exec (.wrWrSeqMatch .mem 0xF) State.reset = .next t ∧ t.life = .attached ∧
      t.progress ≠ State.reset.progress := ⟨_, rfl, rfl, by decide⟩

theorem witness_SixKeysInOrderUnlock :
    cfgRef.wf = true ∧ State.reset.life = .attached ∧ State.reset.progress = 0 ∧
    [0xFF, 0x4, 0xB, 0x2, 0x7, 0xD].map State.reset.cfg.key = State.reset.cfg.keys.toList := by decide +kernel

/-- A stray key and a read, then the six keys through both windows with another access between. -/
def unlockInputs : List Input :=
  [encodeWrite cfgRef .mem .wrSeq 0x4, encodeRead cfgRef .io .doorbell, encodeWrite cfgRef .mem .wrSeq 0xF,
   encodeWrite cfgRef .io .wrSeq 0x4, encodeWrite cfgRef .mem .hcbSize 9, encodeWrite cfgRef .mem .wrSeq 0xB,
   encodeWrite cfgRef .io .wrSeq 0x2, encodeWrite cfgRef .mem .wrSeq 0x7, encodeWrite cfgRef .mem .wrSeq 0xD]

theorem witness_UnlockedOnlyByKeysInOrder :
    State.reset.cfg.wf = true ∧ State.reset.progress = 0 ∧
    (nextOf (deliver State.reset unlockInputs)).map (fun t => (t.life, t.progress)) = some (.attached, 6) ∧
    keysWritten cfgRef unlockInputs = [0x4] ++ cfgRef.keys.toList := by
  decide +kernel

theorem witness_HcbSizeWriteStoresValue : State.reset.life = .attached := rfl

theorem witness_BadWidthOperations : (inRead [1] 0).life = .attached := rfl

theorem witness_DiagWindowOperations : (atKey 6 0x80).life = .attached := rfl

/-- A named unimplemented register; an offset beyond the window; one that names nothing. -/
theorem witness_UnimplementedOffsetOperations :
    State.reset.life = .attached ∧
    ((0xC4 : Offset).toNat < Window.io.size ∧ 0xC4 ∈ State.reset.cfg.unimplOffsets) ∧
    ¬ (0x100 : Offset).toNat < Window.io.size ∧ (0x0C : Offset) ∉ State.reset.cfg.unimplOffsets := by decide

theorem witness_AttachReachesResetState : detached.life = .detached ∧ State.reset.life = .attached := ⟨rfl, rfl⟩

theorem witness_HardResetReachesResetState : stateX.life = .attached := rfl

theorem witness_DetachReleasesLine : stateX.life = .attached ∧ halted.life = .halted := ⟨rfl, rfl⟩

theorem witness_ReattachForgetsEarlierLife :
    stateX.cfg = State.reset.cfg ∧ stateX.freeCount = State.reset.freeCount ∧ stateX.life = .attached ∧
    State.reset.life = .attached := ⟨rfl, rfl, rfl, rfl⟩

theorem witness_NoStepUnlessAttached :
    (detached.life = .detached ∧ Instr.rdDoorbell .mem ≠ .evAttach) ∧
    halted.life = .halted := by decide

/-- With an input pending and with none. -/
theorem witness_HaltedBlockNeverSteps :
    (halted.withFetchWord 24 0x040000).life = .halted ∧ halted.life = .halted := ⟨rfl, rfl⟩

theorem witness_ReadsChangeOnlyReadIndex :
    (Instr.rdDoorbell .mem).op.isRead = true ∧ (inRead [1] 0).consistent = true ∧
    ∃ t, exec (.rdDoorbell .mem) (inRead [1] 0) = .next t ∧ t.readIdx ≠ (inRead [1] 0).readIdx :=
  ⟨rfl, rfl, _, rfl, by decide⟩

theorem witness_OnlyReadsAnswer :
    State.reset.consistent = true ∧ (∃ t, exec (.rdBadWidth .mem 0 31) State.reset = .next t) ∧
    (Instr.rdBadWidth .mem 0 31).op.isRead = true ∧ (∃ t, exec .evHardReset State.reset = .next t) ∧
    Instr.evHardReset.op.isRead = false := ⟨rfl, ⟨_, rfl⟩, rfl, ⟨_, rfl⟩, rfl⟩

theorem witness_DoorbellTransitionsAreTabled :
    (inWrite 1 []).life = .attached ∧ (inWrite 1 []).consistent = true ∧
    ∃ t, exec (.wrDoorbellData .mem 1) (inWrite 1 []) = .next t ∧ t.life = .attached ∧
      t.dbState ≠ (inWrite 1 []).dbState := ⟨rfl, rfl, _, rfl, rfl, by decide⟩

theorem witness_AtMostOneViolation :
    State.reset.consistent = true ∧ ∃ t, exec (.rdWrSeq .mem) State.reset = .next t := ⟨rfl, _, rfl⟩

theorem witness_WindowsShareRegisters : (0xFC : Offset).toNat < 0x100 ∧ (0xFC : Offset).toNat % 4 = 0 := by decide

/-- Another operation, and a data write that is not the last. -/
theorem witness_HandlerAskedOnlyOnCompletion :
    ¬ ((Instr.rdDoorbell .mem).op = .wrDoorbellData ∧ (inWrite 1 []).writeIdx + 1 = (inWrite 1 []).capacity) ∧
    ¬ ((Instr.wrDoorbellData .mem 1).op = .wrDoorbellData ∧ (inWrite 2 []).writeIdx + 1 = (inWrite 2 []).capacity) := by
  decide

/-- Fewer words than declared; all of them. -/
theorem witness_AcceptedWordsFillBuffer :
    State.reset.cfg.wf = true ∧ State.reset.life = .attached ∧ State.reset.consistent = true ∧
    State.reset.dbState = .none ∧ State.reset.cfg.fn 0x42020000 = State.reset.cfg.fnHandshake ∧
    State.reset.cfg.fn 1 ≠ State.reset.cfg.fnMur ∧ State.reset.cfg.fn 2 ≠ State.reset.cfg.fnMur ∧
    [1].length < State.reset.cfg.add 0x42020000 ∧
    [1, 2].length = State.reset.cfg.add 0x42020000 := by decide +kernel

/-- Every word of the reply, the read after it, and a reply of no words. -/
theorem witness_ReplyStreamsThenAcknowledge :
    (inRead [8, 9] 0).cfg.wf = true ∧ (inRead [8, 9] 0).life = .attached ∧ (inRead [8, 9] 0).consistent = true ∧
    (inRead [8, 9] 0).dbState = .read ∧ (inRead [8, 9] 0).readIdx = 0 ∧
    (inRead [8, 9] 0).replyLen = (inRead [8, 9] 0).replyBuf.length ∧ (inRead [8, 9] 0).replyBuf[1]? = some 9 ∧
    (inRead [8, 9] 0).replyLen < 3 ∧ (inRead [] 0).consistent = true := by decide +kernel

/-- Running, and broken in a build that corrects itself. -/
theorem witness_ResetThenAcknowledgeIdles :
    stateX.cfg.wf = true ∧ stateX.life = .attached ∧ stateX.consistent = true ∧
    stateX.cfg.fn 0x40000000 = stateX.cfg.fnMur ∧ broken.life = .attached ∧ broken.cfg.debugBuild = false := by
  decide +kernel

theorem witness_OutboundImageIsLittleEndian :
    (inWrite 3 [1, 0xDEADBEEF]).outBuf[1]? = some 0xDEADBEEF ∧ (3 : Nat) < 4 := by decide

end Sys2Proof.Tests
end

section
/-! SUPPORT. What one step answers, by its next input (00_scope.md R8). -/

namespace Sys2Proof.Machine

variable {s : State} {inp : Input} {rest : List Input} {i : Instr}

/-- With an input pending that decodes, a step runs its operation on the state that begins the step (R8, R73). -/
theorem step_of_decode (hi : s.inputs = inp :: rest) (hd : decode s.cfg s.decodePosition inp = .ok i) :
    step s = exec i (s.beginStep rest) := by
  simp only [step, hi, hd]

/-- With no input pending a step is the idle one. -/
theorem step_of_no_input (hi : s.inputs = []) : step s = idleStep s := by
  simp only [step, hi]

/-- Settles O2: the two equations of `step`, by the queue's constructors; the idle step by its two laws. -/
theorem stepRunsDecodedOperation : Obligations.StepRunsDecodedOperation := by
  refine ⟨fun s inp rest i hi hd => ?decoded, fun s hi hl => ?idle, fun s hi hl => ?halted⟩
  case decoded => exact step_of_decode hi hd
  case idle => rw [step_of_no_input hi, idleStep_next.mpr ⟨hl, rfl⟩]
  case halted => rw [step_of_no_input hi, idleStep_of_halted hl]

end Sys2Proof.Machine
end

section
/-! SUPPORT. Setting, clearing and testing the bits of a mask, and what a well-formed configuration gives the operations:
no one-bit mask is zero, no count is beyond the largest, every expected key is one of six. -/

namespace Sys2Proof

/-- A one-bit mask has its bit (00_scope.md R4). -/
theorem isSingleBit_ne_zero {m : Word} (h : isSingleBit m = true) : m ≠ 0 := by
  rintro rfl
  exact absurd h (by decide)

/-- A mask that was set is found. -/
theorem hasBit_or_self {m : Word} (hm : m ≠ 0) (w : Word) : hasBit (w ||| m) m = true := by
  have h : (w ||| m) &&& m = m := by
    ext i
    simpa using Or.inr
  simpa [hasBit, h] using hm

/-- A mask that was cleared is not found. -/
theorem hasBit_andNot (w m : Word) : hasBit (w &&& ~~~m) m = false := by
  simp [hasBit, BitVec.and_assoc]

/-- Setting a mask puts no bit outside it. -/
theorem or_andNot_self (w m : Word) : (w ||| m) &&& ~~~m = w &&& ~~~m := by
  simp [BitVec.and_or_distrib_right]

/-- Clearing a mask twice is clearing it once. -/
theorem andNot_andNot_self (w m : Word) : w &&& ~~~m &&& ~~~m = w &&& ~~~m := by
  rw [BitVec.and_assoc, BitVec.and_self]

/-- What is kept under a mask has no bit outside it. -/
theorem and_andNot_self (w m : Word) : w &&& m &&& ~~~m = 0 := by
  simp [BitVec.and_assoc]

/-- The count of a handshake request is at most the largest one (10_state.md R18). -/
theorem Cfg.add_le_maxCount (c : Cfg) (v : Word) : c.add v ≤ c.maxCount := by
  simp only [Cfg.add, Cfg.maxCount, BitVec.toNat_ushiftRight, BitVec.toNat_and, Nat.shiftRight_eq_div_pow]
  exact Nat.div_le_div_right Nat.and_le_right

/-- A key is expected only below progress 6 (43_diagnostic_unlock.md R157, R158). -/
theorem Cfg.lt_six_of_expectedKey {c : Cfg} {p : Nat} {k : Word} (h : c.expectedKey p = some k) : p < 6 := by
  unfold Cfg.expectedKey at h
  split at h <;> simp_all

/-- The doorbell status mask has its bit (00_scope.md R5 item 4). -/
theorem Cfg.WF.hisDoorbell_ne_zero {c : Cfg} (h : c.WF) : c.hisDoorbell ≠ 0 := by
  have hw := h.1
  simp only [Cfg.wf, Cfg.wfInterrupt, Bool.and_eq_true] at hw
  exact isSingleBit_ne_zero (by tauto)

/-- The write-enable mask has its bit (00_scope.md R5 item 5). -/
theorem Cfg.WF.diagWe_ne_zero {c : Cfg} (h : c.WF) : c.diagWe ≠ 0 := by
  have hw := h.1
  simp only [Cfg.wf, Cfg.wfDiag, Bool.and_eq_true] at hw
  exact isSingleBit_ne_zero (by tauto)

/-- The initial interrupt mask has writable bits only (00_scope.md R5 item 8). -/
theorem Cfg.WF.initIntMask_writable {c : Cfg} (h : c.WF) : c.initIntMask &&& ~~~c.himWritable = 0 := by
  have hw := h.1
  simp only [Cfg.wf, Cfg.wfInitMask, Bool.and_eq_true, beq_iff_eq] at hw
  tauto

end Sys2Proof
end

section
/-! SUPPORT. What every effect keeps: the configuration, a life that is not HALTED, and event lists without `Fatal`. With
it, no step changes the configuration (O12) and, from the invariants, none halts the block (O13). -/

namespace Sys2Proof.Machine

variable {s t u : State} {i : Instr}

/-- The change from `s` to `t` keeps the configuration, does not halt the block and emits no `Fatal` event. -/
structure BenignChange (s t : State) : Prop where
  cfg_eq : t.cfg = s.cfg
  not_halted : s.life ≠ .halted → t.life ≠ .halted
  no_fatal : Event.fatal .state ∉ s.events → Event.fatal .state ∉ t.events

theorem BenignChange.trans (h₁ : BenignChange s t) (h₂ : BenignChange t u) : BenignChange s u :=
  ⟨h₂.cfg_eq.trans h₁.cfg_eq, h₂.not_halted ∘ h₁.not_halted, h₂.no_fatal ∘ h₁.no_fatal⟩

/-- A change of other fields than the configuration, the life and the events. -/
theorem BenignChange.of_eq (hc : t.cfg = s.cfg) (hl : t.life = s.life) (he : t.events = s.events) : BenignChange s t :=
  ⟨hc, fun h => hl ▸ h, fun h => he ▸ h⟩

/-- A benign change of a state that differs from `s` in other fields only. -/
theorem BenignChange.after (h : BenignChange t u) (hc : t.cfg = s.cfg) (hl : t.life = s.life)
    (he : t.events = s.events) : BenignChange s u :=
  (BenignChange.of_eq hc hl he).trans h

/-- A change that emits events, `Fatal` not among them. -/
theorem BenignChange.of_events {es : List Event} (hc : t.cfg = s.cfg) (hl : t.life = s.life)
    (he : t.events = s.events ++ es) (hes : Event.fatal .state ∉ es) : BenignChange s t :=
  ⟨hc, fun h => hl ▸ h, fun h => by simp [he, h, hes]⟩

/-- An interrupt evaluation emits no `Fatal` (42_interrupt_arbiter.md R141). -/
theorem fatal_notMem_irqEvents (msix level : Bool) : Event.fatal .state ∉ irqEvents msix level := by
  cases msix <;> cases level <;> simp [irqEvents]

/-- Nor does a soft reset (70_reset_and_hazards.md R225). -/
theorem fatal_notMem_softResetEvents (c : Cfg) (msix : Bool) (w : Word) :
    Event.fatal .state ∉ softResetEvents c msix w := by
  simp [softResetEvents, fatal_notMem_irqEvents]

/-- Logging a violation is benign (60_exceptions.md R212). -/
theorem raiseViolation_benign (s : State) (v : Violation) : BenignChange s (s.raiseViolation v) :=
  .of_events rfl rfl rfl (by simp)

/-- So is an answer after it, at any width. -/
theorem answer_benign (h : BenignChange s t) (v : Word) : BenignChange s (t.answer v) :=
  h.trans (.of_eq rfl rfl rfl)

theorem irqEval_benign (s : State) : BenignChange s s.irqEval :=
  .of_events (State.irqEval_cfg s) (State.irqEval_life s) (State.irqEval_events s) (fatal_notMem_irqEvents _ _)

theorem raiseDoorbellInterrupt_benign (s : State) : BenignChange s s.raiseDoorbellInterrupt :=
  (irqEval_benign _).after rfl rfl rfl

theorem softReset_benign (s : State) : BenignChange s s.softReset := by
  rw [State.softReset_eq]
  exact .of_events rfl rfl rfl (fatal_notMem_softResetEvents _ _ _)

theorem hardReset_benign (s : State) : BenignChange s s.hardReset := by
  rw [State.hardReset_eq]
  exact .of_events rfl rfl rfl (fatal_notMem_softResetEvents _ _ _)

theorem diagResetNow_benign (s : State) : BenignChange s s.diagResetNow := by
  rw [State.diagResetNow_eq]
  exact .of_events rfl rfl rfl (fatal_notMem_softResetEvents _ _ _)

theorem enterRead_benign (s : State) (ws : List Half) : BenignChange s (s.enterRead ws) :=
  (raiseDoorbellInterrupt_benign _).after rfl rfl rfl

theorem acceptWord_benign (s : State) (v : Word) : BenignChange s (s.acceptWord v) := by
  obtain ⟨ws, -, -, e⟩ | ⟨-, -, e⟩ | ⟨-, e⟩ := State.acceptWord_cases s v
  · rw [e]
    exact (enterRead_benign _ ws).after rfl rfl rfl
  · rw [e]
    exact .of_eq rfl rfl rfl
  · rw [e]
    exact .of_eq rfl rfl rfl

theorem acknowledge_benign (s : State) : BenignChange s s.acknowledge := by
  obtain ⟨-, e⟩ | ⟨-, -, e⟩ | ⟨-, -, e⟩ := State.acknowledge_cases s
  all_goals
    rw [e]
    exact .of_eq rfl rfl rfl

theorem advanceKey_benign (s : State) : BenignChange s s.advanceKey := by
  obtain ⟨-, e⟩ | ⟨-, e⟩ := State.advanceKey_cases s
  all_goals
    rw [e]
    exact .of_eq rfl rfl rfl

theorem readDoorbell_benign (s : State) : BenignChange s s.readDoorbell := by
  obtain e | ⟨-, -, e⟩ := State.readDoorbell_cases s
  all_goals
    rw [e]
    exact .of_eq rfl rfl rfl

theorem wrHostDiag_benign (s : State) (win : Window) (v : Word) : BenignChange s (effect (.wrHostDiag win v) s) := by
  simp only [effect]
  split
  · split
    · exact diagResetNow_benign s
    · exact .of_eq rfl rfl rfl
  · exact .of_eq rfl rfl rfl

theorem attachNow_benign (s : State) : BenignChange s s.attachNow := by
  rw [State.attachNow_eq]
  exact ⟨rfl, fun _ => nofun, fun h => by simp [h, fatal_notMem_softResetEvents]⟩

theorem detachNow_benign (s : State) : BenignChange s s.detachNow := by
  obtain ⟨hl, hc, -, -, he, -⟩ := State.detachNow_keeps s
  refine ⟨hc, fun _ => by simp [hl], fun h => ?_⟩
  cases hm : s.msixInUse <;> simp [he, h, hm]

/-- Every operation's effect is benign: `Fatal` comes from the invariant check alone (60_exceptions.md R200). -/
theorem effect_benign (i : Instr) (s : State) : BenignChange s (effect i s) := by
  cases i with
  | rdDoorbell => exact readDoorbell_benign s
  | wrDoorbellMur => exact softReset_benign s
  | wrDoorbellData _ v => exact acceptWord_benign s v
  | wrDoorbellOverrun => exact (raiseViolation_benign s _).trans (.of_eq rfl rfl rfl)
  | wrDoorbellHandshake => exact (raiseDoorbellInterrupt_benign _).after rfl rfl rfl
  | wrDoorbellOtherFn => exact raiseViolation_benign s _
  | wrDoorbellInRead => exact raiseViolation_benign s _
  | rdWrSeq => exact answer_benign (raiseViolation_benign s _) _
  | wrWrSeqFlush => exact .of_eq rfl rfl rfl
  | wrWrSeqMatch => exact advanceKey_benign s
  | wrWrSeqMismatch => exact (raiseViolation_benign s _).trans (.of_eq rfl rfl rfl)
  | rdHostDiag => exact .of_eq rfl rfl rfl
  | wrHostDiag win v => exact wrHostDiag_benign s win v
  | rdIntStatus => exact .of_eq rfl rfl rfl
  | wrIntStatus => exact (acknowledge_benign s).trans (irqEval_benign _)
  | rdIntMask => exact .of_eq rfl rfl rfl
  | wrIntMask => exact (irqEval_benign _).after rfl rfl rfl
  | rdHcbSize => exact .of_eq rfl rfl rfl
  | wrHcbSize => exact .of_eq rfl rfl rfl
  | rdDiagWin => exact answer_benign (raiseViolation_benign s _) _
  | wrDiagWin => exact raiseViolation_benign s _
  | rdUnimpl => exact answer_benign (raiseViolation_benign s _) _
  | wrUnimpl => exact raiseViolation_benign s _
  | rdBadWidth => exact (raiseViolation_benign s _).trans (.of_eq rfl rfl rfl)
  | wrBadWidth => exact raiseViolation_benign s _
  | evAttach => exact attachNow_benign s
  | evHardReset => exact hardReset_benign s
  | evDetach => exact detachNow_benign s

/-- No operation changes the configuration, not even where the invariant check halts or corrects the block. -/
theorem exec_cfg (h : exec i s = .next t) : t.cfg = s.cfg := by
  obtain ⟨-, ⟨rfl, -⟩ | ⟨rfl, -⟩ | ⟨rfl, -⟩⟩ := exec_completes h
  · exact (effect_benign i s).cfg_eq
  · exact s.raiseFatal_cfg
  · exact (effect_benign i s.selfCorrect).cfg_eq

/-- Settles O12: an idle step answers the state itself, any other step the next state of an operation. -/
theorem stepKeepsConfiguration : Obligations.StepKeepsConfiguration := by
  intro s t h
  obtain ⟨-, -, rfl⟩ | ⟨inp, rest, i, -, -, he⟩ := step_next h
  · rfl
  · exact (exec_cfg he).trans (s.beginStep_cfg rest)

/-- The invariants include the condition of the invariant check (41_doorbell_handshake.md R128). -/
theorem AttachedInv.consistent (h : AttachedInv s) : s.consistent = true := by
  have hr : s.dbState ≠ .read ∨ hasBit s.intStatus s.cfg.hisDoorbell = true :=
    (em (s.dbState = .read)).elim (fun hd => .inr (h.read_status hd)) .inl
  simpa [State.consistent, h.writeIdx_le, h.readIdx_le] using hr

/-- The invariants do not speak of the pending inputs, the answer and the events. -/
theorem Inv.beginStep (h : Inv s) (rest : List Input) : Inv (s.beginStep rest) :=
  ⟨h.1, fun ha => { h.2 ha with }⟩

/-- From the invariants an operation that completes has its effect: the invariant check does not fail. -/
theorem exec_effect_of_inv (hi : Inv s) (h : exec i s = .next t) :
    lifeAllows i s ∧ t = effect i s ∧ i.selected s.cfg s.position = true := by
  obtain ⟨rfl, hd⟩ | ⟨-, ha⟩ := (exec_completes h).1
  · exact ⟨.inl ⟨rfl, hd⟩, (execEvAttach_next.mp h).2, rfl⟩
  · exact exec_effect (hi.2 ha).consistent h

/-- Settles O13: from the invariants a step with an input is an operation's effect, which is benign. -/
theorem noInputYieldsFatal : Obligations.NoInputYieldsFatal := by
  intro s t hi hin h
  obtain ⟨hnil, -⟩ | ⟨inp, rest, i, -, -, he⟩ := step_next h
  · exact absurd hnil hin
  · have hb : Inv (s.beginStep rest) := hi.beginStep rest
    obtain ⟨-, rfl, -⟩ := exec_effect_of_inv hb he
    exact ⟨(effect_benign i _).no_fatal (by simp), (effect_benign i _).not_halted hb.1⟩

end Sys2Proof.Machine
end

section
/-! SUPPORT. The invariants of 10_state.md R31 are kept by the effect of every operation, and so by every step (O10). -/

namespace Sys2Proof.Machine

variable {s t : State} {i : Instr} {win : Window} {v : Word}

/-! ### What the selection of an operation gives -/

/-- A data write is selected only in WRITE, below the capacity (41_doorbell_handshake.md R116). -/
theorem selected_wrDoorbellData (h : (Instr.wrDoorbellData win v).selected s.cfg s.position = true) :
    s.dbState = .write ∧ s.writeIdx < s.capacity := by
  simp only [Instr.selected, Cfg.selectsData, Bool.and_eq_true, beq_iff_eq, decide_eq_true_eq] at h
  obtain ⟨⟨-, hd⟩, hlt⟩ := h
  exact ⟨hd, hlt⟩

/-- A key matches only below progress 6 (43_diagnostic_unlock.md R157). -/
theorem selected_wrWrSeqMatch (h : (Instr.wrWrSeqMatch win v).selected s.cfg s.position = true) : s.progress < 6 := by
  simp only [Instr.selected, Cfg.selectsMatch, Cfg.isExpectedKey, Bool.and_eq_true, beq_iff_eq] at h
  exact Cfg.lt_six_of_expectedKey h.2

/-! ### The interrupt line -/

/-- An evaluation brings the line to the level it finds, if the line was at the level of any other: in MSI-X mode the line
is low and stays so (10_state.md R31 item 8). -/
theorem lineAfter_level {msix line before : Bool} (h : line = (!msix && before)) (level : Bool) :
    lineAfter msix level line = (!msix && level) := by
  cases msix with
  | false => rfl
  | true => exact h

/-! ### The resets -/

/-- What the invariants need of a state before a soft reset: the conditions on the elements it does not restore. -/
structure SoftResetKeeps (s : State) : Prop where
  progress_le : s.progress ≤ 6
  unlocked_iff : s.unlocked = true ↔ s.progress = 6
  diag_only : s.diag &&& ~~~s.cfg.diagWe = 0
  mask_only : s.intMask &&& ~~~s.cfg.himWritable = 0
  line_low : s.msixInUse = true → s.irqLine = false
  limits : s.maxTargets = s.cfg.maxTargetsDefault ∧ s.maxBuses = s.cfg.maxBusesDefault
  identity : s.wwn = s.cfg.identity
  delivery : s.msixInUse = s.cfg.usesMsix

/-- In MSI-X mode the line is low (10_state.md R31 item 8). -/
theorem AttachedInv.line_low (h : AttachedInv s) (hm : s.msixInUse = true) : s.irqLine = false := by
  simp [h.line_level, hm]

theorem AttachedInv.softResetKeeps (h : AttachedInv s) : SoftResetKeeps s :=
  { h with line_low := h.line_low }

/-- A soft reset leaves the invariants, also where it finds the doorbell or the interrupt in disorder
(70_reset_and_hazards.md R225). -/
theorem SoftResetKeeps.softReset (h : SoftResetKeeps s) : AttachedInv s.softReset := by
  rw [State.softReset_eq]
  have hline : lineAfter s.msixInUse false s.irqLine = (!s.msixInUse && s.cfg.asserted 0 s.intMask) := by
    cases hm : s.msixInUse with
    | false => simp [lineAfter]
    | true => simp [lineAfter, h.line_low hm]
  exact { h with
    writeIdx_le := le_rfl, readIdx_le := le_rfl, capacity_le := Nat.zero_le _, outBuf_length := nofun
    write_open := nofun, read_status := nofun, replyLen_eq := rfl, replyLen_le := Nat.zero_le _
    status_only := BitVec.zero_and, line_level := hline, opState_ready := rfl }

/-- Locked, with no key counted: the diagnostic conditions of R31 hold. -/
theorem unlocked_iff_of_locked (h : s.unlocked = false) (hp : s.progress = 0) : s.unlocked = true ↔ s.progress = 6 := by
  simp [h, hp]

/-- With no bit of the diagnostic register the gate is closed. -/
theorem unlocked_of_diag_zero (h : s.diag = 0) : s.unlocked = false := by
  simp [State.unlocked, hasBit, h]

/-- A hard reset is a soft reset after the rest is restored (70_reset_and_hazards.md R226). -/
theorem State.hardReset_eq_softReset (s : State) :
    s.hardReset = State.softReset { s with
      intMask := s.cfg.initIntMask, maxTargets := s.cfg.maxTargetsDefault, maxBuses := s.cfg.maxBusesDefault
      hcbSize := s.cfg.hcbSizeDefault, progress := 0, diag := 0 } := by
  rw [State.hardReset_eq, State.softReset_eq]

/-- So is a diagnostic reset (43_diagnostic_unlock.md R162). -/
theorem State.diagResetNow_eq_softReset (s : State) :
    s.diagResetNow = State.softReset { s with progress := 0, diag := 0, hcbSize := s.cfg.hcbSizeDefault } := by
  rw [State.diagResetNow_eq, State.softReset_eq]

/-- A hard reset leaves the invariants from any state with the identity, the delivery mechanism and the line they need. -/
theorem hardReset_attachedInv (hc : s.cfg.WF) (hline : s.msixInUse = true → s.irqLine = false)
    (hid : s.wwn = s.cfg.identity) (hdel : s.msixInUse = s.cfg.usesMsix) : AttachedInv s.hardReset := by
  rw [State.hardReset_eq_softReset]
  exact SoftResetKeeps.softReset
    { progress_le := Nat.zero_le _, unlocked_iff := unlocked_iff_of_locked (unlocked_of_diag_zero rfl) rfl
      diag_only := BitVec.zero_and, mask_only := hc.initIntMask_writable, line_low := hline, limits := ⟨rfl, rfl⟩
      identity := hid, delivery := hdel }

/-- A diagnostic reset keeps the invariants. -/
theorem AttachedInv.diagResetNow (h : AttachedInv s) : AttachedInv s.diagResetNow := by
  rw [State.diagResetNow_eq_softReset]
  exact SoftResetKeeps.softReset
    { h.softResetKeeps with
      progress_le := Nat.zero_le _, unlocked_iff := unlocked_iff_of_locked (unlocked_of_diag_zero rfl) rfl
      diag_only := BitVec.zero_and }

/-- An attach leaves the invariants, from any state (70_reset_and_hazards.md R227). -/
theorem attachNow_attachedInv (hc : s.cfg.WF) : AttachedInv s.attachNow := by
  have h : AttachedInv (State.hardReset { s.undefineElements with
      wwn := s.cfg.identity, msixInUse := s.cfg.usesMsix, irqLine := false, intStatus := 0 }) :=
    hardReset_attachedInv hc (fun _ => rfl) rfl rfl
  exact { h with }

/-! ### The doorbell -/

/-- Starting a handshake keeps the invariants (41_doorbell_handshake.md R118). -/
theorem AttachedInv.startHandshake (h : AttachedInv s) (v : Word) : AttachedInv (s.startHandshake v) := by
  rw [State.startHandshake, State.raiseDoorbellInterrupt_eq]
  exact { h with
    writeIdx_le := Nat.zero_le _, capacity_le := s.cfg.add_le_maxCount v, outBuf_length := fun _ => rfl
    write_open := fun _ => (Nat.eq_zero_or_pos _).symm, read_status := nofun
    status_only := (or_andNot_self _ _).trans h.status_only, line_level := lineAfter_level h.line_level _ }

/-- Entering READ with a reply that fits keeps the invariants (41_doorbell_handshake.md R120). -/
theorem AttachedInv.enterRead (h : AttachedInv s) (hc : s.cfg.WF) {ws : List Half} (hlen : ws.length ≤ s.cfg.replyMax) :
    AttachedInv (s.enterRead ws) := by
  rw [State.enterRead_eq]
  exact { h with
    readIdx_le := Nat.zero_le _, outBuf_length := nofun, write_open := nofun
    read_status := fun _ => hasBit_or_self hc.hisDoorbell_ne_zero _, replyLen_eq := rfl, replyLen_le := hlen
    status_only := (or_andNot_self _ _).trans h.status_only, line_level := lineAfter_level h.line_level _ }

/-- Accepting a word keeps the invariants. The last word leaves WRITE, with or without a reply; an earlier one leaves room
(41_doorbell_handshake.md R119, R120). -/
theorem AttachedInv.acceptWord (h : AttachedInv s) (hc : s.cfg.WF) (hd : s.dbState = .write)
    (hlt : s.writeIdx < s.capacity) (v : Word) : AttachedInv (s.acceptWord v) := by
  have hlen : (s.outBuf ++ [v]).length = s.writeIdx + 1 := by simp [h.outBuf_length hd]
  have left : AttachedInv { s with outBuf := s.outBuf ++ [v], writeIdx := s.writeIdx + 1, dbState := .none } :=
    { h with writeIdx_le := hlt, outBuf_length := nofun, write_open := nofun, read_status := nofun }
  obtain ⟨ws, hfull, hans, e⟩ | ⟨-, -, e⟩ | ⟨hroom, e⟩ := State.acceptWord_cases s v
  · have hfits : (s.outBuf ++ [v]).length ≤ s.cfg.maxCount := by
      rw [hlen, hfull]
      exact h.capacity_le
    rw [e]
    exact left.enterRead hc (hc.2 _ hfits ws hans)
  · rw [e]
    exact left
  · rw [e]
    exact { h with
      writeIdx_le := hlt, outBuf_length := fun _ => hlen
      write_open := fun _ => .inl (Nat.lt_of_le_of_ne hlt hroom) }

/-- A doorbell read keeps the invariants (41_doorbell_handshake.md R125). -/
theorem AttachedInv.readDoorbell (h : AttachedInv s) : AttachedInv s.readDoorbell := by
  obtain e | ⟨-, hlt, e⟩ := State.readDoorbell_cases s
  · rw [e]
    exact { h with }
  · rw [e]
    exact { h with readIdx_le := hlt }

/-- An overrun keeps the invariants (41_doorbell_handshake.md R122). -/
theorem AttachedInv.overrun (h : AttachedInv s) : AttachedInv (effect (.wrDoorbellOverrun win v) s) :=
  { h with writeIdx_le := Nat.zero_le _, outBuf_length := nofun, write_open := nofun, read_status := nofun }

/-! ### The interrupt registers -/

/-- Clearing the status bit outside READ, then evaluating, keeps the invariants. -/
theorem AttachedInv.clearThenEval (h : AttachedInv s) (hd : s.dbState ≠ .read) :
    AttachedInv s.clearDoorbellStatus.irqEval := by
  rw [State.irqEval_eq]
  exact { h with
    read_status := fun hr => absurd hr hd, status_only := (andNot_andNot_self _ _).trans h.status_only
    line_level := lineAfter_level h.line_level _ }

/-- An acknowledge keeps the invariants: in READ it clears the bit only with the drained reply it ends
(42_interrupt_arbiter.md R144). -/
theorem AttachedInv.acknowledge (h : AttachedInv s) : AttachedInv s.acknowledge.irqEval := by
  obtain ⟨hd, e⟩ | ⟨-, -, e⟩ | ⟨-, -, e⟩ := State.acknowledge_cases s
  · rw [e]
    exact h.clearThenEval hd
  · have idle : AttachedInv { s with dbState := .none } :=
      { h with outBuf_length := nofun, write_open := nofun, read_status := nofun }
    rw [e]
    exact idle.clearThenEval nofun
  · rw [e, State.irqEval_eq]
    exact { h with line_level := lineAfter_level h.line_level _ }

/-- A mask write keeps the invariants (42_interrupt_arbiter.md R146). -/
theorem AttachedInv.writeIntMask (h : AttachedInv s) : AttachedInv (effect (.wrIntMask win v) s) := by
  simp only [effect, State.irqEval_eq]
  exact { h with mask_only := and_andNot_self _ _, line_level := lineAfter_level h.line_level _ }

/-! ### The diagnostic sequencer -/

/-- A flush keeps the invariants (43_diagnostic_unlock.md R156). -/
theorem AttachedInv.flush (h : AttachedInv s) : AttachedInv (effect (.wrWrSeqFlush win v) s) :=
  { h with
    progress_le := Nat.zero_le _, unlocked_iff := unlocked_iff_of_locked (unlocked_of_diag_zero rfl) rfl
    diag_only := BitVec.zero_and }

/-- A wrong key keeps the invariants (43_diagnostic_unlock.md R158). -/
theorem AttachedInv.mismatch (h : AttachedInv s) : AttachedInv (effect (.wrWrSeqMismatch win v) s) :=
  { h with
    progress_le := Nat.zero_le _, unlocked_iff := unlocked_iff_of_locked (hasBit_andNot _ _) rfl
    diag_only := (andNot_andNot_self _ _).trans h.diag_only }

/-- The expected key keeps the invariants: the sixth opens the gate, an earlier one finds it closed and leaves it so
(43_diagnostic_unlock.md R157). -/
theorem AttachedInv.advanceKey (h : AttachedInv s) (hc : s.cfg.WF) (hp : s.progress < 6) : AttachedInv s.advanceKey := by
  obtain ⟨-, e⟩ | ⟨hne, e⟩ := State.advanceKey_cases s
  · rw [e]
    exact { h with
      progress_le := le_rfl, unlocked_iff := iff_of_true (hasBit_or_self hc.diagWe_ne_zero _) rfl
      diag_only := (or_andNot_self _ _).trans h.diag_only }
  · have hlocked : ¬ s.unlocked = true := fun hu => absurd (h.unlocked_iff.mp hu) hp.ne
    rw [e]
    exact { h with
      progress_le := hp, unlocked_iff := iff_of_false hlocked (by simpa using hne) }

/-- A host diagnostic write keeps the invariants (43_diagnostic_unlock.md R161). -/
theorem AttachedInv.writeHostDiag (h : AttachedInv s) : AttachedInv (effect (.wrHostDiag win v) s) := by
  simp only [effect]
  split
  · split
    · exact h.diagResetNow
    · exact h
  · exact h

/-! ### All operations, and the step -/

/-- The effect of every operation of an attached block that does not end its life keeps the invariants. Where only the
answer, the events or the block size change, the invariants speak of none of them. -/
theorem AttachedInv.effect_of_selected (h : AttachedInv s) (hc : s.cfg.WF) (hs : i.selected s.cfg s.position = true)
    (ha : i ≠ .evAttach) (hd : i ≠ .evDetach) : AttachedInv (effect i s) := by
  cases i with
  | rdDoorbell => exact h.readDoorbell
  | wrDoorbellMur => exact h.softResetKeeps.softReset
  | wrDoorbellData _ v =>
    obtain ⟨hw, hlt⟩ := selected_wrDoorbellData hs
    exact h.acceptWord hc hw hlt v
  | wrDoorbellOverrun => exact h.overrun
  | wrDoorbellHandshake _ v => exact h.startHandshake v
  | wrWrSeqFlush => exact h.flush
  | wrWrSeqMatch => exact h.advanceKey hc (selected_wrWrSeqMatch hs)
  | wrWrSeqMismatch => exact h.mismatch
  | wrHostDiag => exact h.writeHostDiag
  | wrIntStatus => exact h.acknowledge
  | wrIntMask => exact h.writeIntMask
  | evHardReset => exact hardReset_attachedInv hc h.line_low h.identity h.delivery
  | evAttach => exact absurd rfl ha
  | evDetach => exact absurd rfl hd
  | wrDoorbellOtherFn | wrDoorbellInRead | rdWrSeq | rdHostDiag | rdIntStatus | rdIntMask | rdHcbSize | wrHcbSize
  | rdDiagWin | wrDiagWin | rdUnimpl | wrUnimpl | rdBadWidth | wrBadWidth => exact { h with }

/-- Every operation that completes keeps the invariants: an attach establishes them, a detach ends the life they speak
of, any other keeps them. -/
theorem exec_keeps_inv (hc : s.cfg.WF) (hi : Inv s) (h : exec i s = .next t) : Inv t := by
  obtain ⟨hl, rfl, hs⟩ := exec_effect_of_inv hi h
  refine ⟨(effect_benign i s).not_halted hi.1, fun hatt => ?_⟩
  obtain ⟨rfl, -⟩ | ⟨ha, hlife⟩ := hl
  · exact attachNow_attachedInv hc
  · have hd : i ≠ .evDetach := by
      rintro rfl
      exact absurd ((State.detachNow_keeps s).1.symm.trans hatt) nofun
    exact (hi.2 hlife).effect_of_selected hc hs ha hd

/-- Settles O10: an idle step answers the state itself; any other runs an operation on the state that begins the step,
which has the invariants, and the operation keeps them. -/
theorem stepKeepsInvariant : Obligations.StepKeepsInvariant := by
  intro s t hc hi h
  obtain ⟨-, -, rfl⟩ | ⟨inp, rest, i, -, -, he⟩ := step_next h
  · exact hi
  · exact exec_keeps_inv (s := s.beginStep rest) hc (hi.beginStep rest) he

end Sys2Proof.Machine
end

section
/-! SUPPORT. No operation runs outside ATTACHED but an attach of a detached block (10_state.md R30). -/

namespace Sys2Proof.Machine

variable {s : State} {i : Instr} {f : State → State}

/-- A doorbell write starts at the gate (30_encoding.md R73 step 1). -/
theorem doorbellWrite_gated : doorbellWrite i s f =
    whenAttached s fun s => withStateCheck s fun s => whenSelected i s fun s => .next (f s) := rfl

/-- So does a write-sequence write. -/
theorem wrSeqWrite_gated : wrSeqWrite i s f = whenAttached s fun s => whenSelected i s fun s => .next (f s) := rfl

/-- Every operation but an attach starts at the gate that needs `LIFE` to be ATTACHED. -/
theorem exec_gated (hi : i ≠ .evAttach) (s : State) : ∃ k, exec i s = whenAttached s k := by
  cases i with
  | evAttach => exact absurd rfl hi
  | wrDoorbellMur | wrDoorbellData | wrDoorbellOverrun | wrDoorbellHandshake | wrDoorbellOtherFn | wrDoorbellInRead =>
    exact ⟨_, doorbellWrite_gated⟩
  | wrWrSeqFlush | wrWrSeqMatch | wrWrSeqMismatch => exact ⟨_, wrSeqWrite_gated⟩
  | _ =>
    simp only [exec]
    exact ⟨_, rfl⟩

/-- Detached, every operation but an attach meets the closed gate. -/
theorem exec_of_detached (h : s.life = .detached) (hi : i ≠ .evAttach) : exec i s = .refused .detached := by
  obtain ⟨k, e⟩ := exec_gated hi s
  rw [e, whenAttached_of_detached h]

/-- Halted, every operation faults, an attach by its own test of `LIFE` (70_reset_and_hazards.md R227). -/
theorem exec_of_halted (h : s.life = .halted) : exec i s = .fault .halted := by
  by_cases hi : i = .evAttach
  · simp only [hi, exec, execEvAttach, h]
  · obtain ⟨k, e⟩ := exec_gated hi s
    rw [e, whenAttached_of_halted h]

/-- Settles O48: the gate of every operation, by the life of the block. -/
theorem noStepUnlessAttached : Obligations.NoStepUnlessAttached :=
  fun _ _ => ⟨exec_of_detached, exec_of_halted⟩

/-- Settles O49: an idle step completes only outside HALTED, and every operation faults there. -/
theorem haltedBlockNeverSteps : Obligations.HaltedBlockNeverSteps := by
  intro s t hl h
  obtain ⟨-, hne, -⟩ | ⟨inp, rest, i, -, -, he⟩ := step_next h
  · exact hne hl
  · have hb : (s.beginStep rest).life = .halted := hl
    rw [exec_of_halted hb] at he
    cases he

end Sys2Proof.Machine
end

section
/-! SUPPORT. The byte order of a register value and of the outbound buffer's image (20_memory.md R57, R58). -/

namespace Sys2Proof

/-- Byte `j` of a number is what is left after `j` divisions by 256. -/
theorem getElem?_littleEndian {k j : Nat} (x : Nat) (hj : j < k) :
    (littleEndian k x)[j]? = some (BitVec.ofNat 8 (x / 256 ^ j)) := by
  induction j generalizing k x with
  | zero =>
    obtain ⟨k, rfl⟩ := Nat.exists_eq_add_of_lt hj
    simp [littleEndian]
  | succ j ih =>
    obtain ⟨k, rfl⟩ : ∃ m, k = m + 1 := ⟨k - 1, by omega⟩
    rw [littleEndian, List.getElem?_cons_succ, ih _ (by omega), Nat.div_div_eq_div_mul, Nat.pow_succ']

/-- Byte `j` of a register value is its bits `8j + 7` to `8j`. -/
theorem getElem?_bytesOfWord (w : Word) {j : Nat} (hj : j < 4) :
    (bytesOfWord w)[j]? = some (w.extractLsb' (8 * j) 8) := by
  have hpow : 256 ^ j = 2 ^ (8 * j) := by rw [Nat.pow_mul]
  rw [bytesOfWord, getElem?_littleEndian _ hj, hpow, ← Nat.shiftRight_eq_div_pow]
  rfl

/-- Byte `4i + j` of an image of words is byte `j` of word `i`. -/
theorem getElem?_flatMap_bytesOfWord {ws : List Word} {i j : Nat} {w : Word} (hw : ws[i]? = some w) (hj : j < 4) :
    (ws.flatMap bytesOfWord)[4 * i + j]? = (bytesOfWord w)[j]? := by
  induction ws generalizing i with
  | nil => cases hw
  | cons x xs ih =>
    rw [List.flatMap_cons]
    cases i with
    | zero =>
      cases hw
      rw [List.getElem?_append_left (by simpa using hj), Nat.mul_zero, Nat.zero_add]
    | succ i =>
      have hpast : (bytesOfWord x).length ≤ 4 * (i + 1) + j := by
        rw [bytesOfWord_length]
        omega
      have hsub : 4 * (i + 1) + j - (bytesOfWord x).length = 4 * i + j := by
        rw [bytesOfWord_length]
        omega
      rw [List.getElem?_append_right hpast, hsub, ih hw]

/-- Settles O59: a position of the image is a word and a byte of it, and bytes are extracted by shifts. -/
theorem outboundImageIsLittleEndian : Obligations.OutboundImageIsLittleEndian := by
  intro s i j w hw hj
  exact (getElem?_flatMap_bytesOfWord hw hj).trans (getElem?_bytesOfWord w hj)

end Sys2Proof
end

section
/-! SUPPORT. What a transaction decodes to, by its direction, and that an access which is not 4 bytes wide and aligned
only logs (20_memory.md R55; 30_encoding.md R73). -/

namespace Sys2Proof

variable {c : Cfg} {p : Position} {tx : BitVec 24} {data : List Byte} {win : Window} {off : Offset} {n : Nat}

/-- A transaction in the read direction decodes as a read of its window, offset and size. -/
theorem decode_read (hd : txDir tx = .read) (hx : (Input.transaction tx data).isTransaction = true) :
    decode c p (.transaction tx data) = .ok (decodeRead c (txWindow tx) (txOffset tx) (txSize tx)) := by
  simp only [Input.isTransaction, hd, decide_eq_true_eq] at hx
  simp only [decode, hd, hx, if_true]

/-- A transaction in the write direction decodes as a write of its data. -/
theorem decode_write (hd : txDir tx = .write) (hx : (Input.transaction tx data).isTransaction = true) :
    decode c p (.transaction tx data) = .ok (decodeWrite c p (txWindow tx) (txOffset tx) (txSize tx) data) := by
  simp only [Input.isTransaction, hd, decide_eq_true_eq] at hx
  simp only [decode, hd, hx, if_true]

/-- Data that does not fit its descriptor is no transaction (30_encoding.md R70). -/
theorem decode_of_not_isTransaction (hx : (Input.transaction tx data).isTransaction = false) :
    decode c p (.transaction tx data) = .error .dataLength := by
  cases hd : txDir tx with
  | read =>
    simp only [Input.isTransaction, hd, decide_eq_false_iff_not] at hx
    simp only [decode, hd, if_neg hx]
  | write =>
    simp only [Input.isTransaction, hd, decide_eq_false_iff_not] at hx
    simp only [decode, hd, if_neg hx]

/-- The bad widths and alignments (20_memory.md R55, R56). -/
theorem badWidth_iff : badWidth off n = true ↔ n ≠ 4 ∨ off.toNat % 4 ≠ 0 := by
  simp [badWidth]

theorem decodeRead_of_badWidth (h : badWidth off n = true) : decodeRead c win off n = .rdBadWidth win off n := if_pos h

theorem decodeWrite_of_badWidth (h : badWidth off n = true) :
    decodeWrite c p win off n data = .wrBadWidth win off n data := if_pos h

end Sys2Proof

namespace Sys2Proof.Machine

variable {s : State} {inp : Input} {rest : List Input}

/-- An input that does not decode is refused by name (assumption 4). -/
theorem step_of_decode_error {e : DecodeError} (hi : s.inputs = inp :: rest)
    (hd : decode s.cfg s.decodePosition inp = .error e) : step s = .refused .malformedInput := by
  cases e
  simp only [step, hi, hd]

/-- Settles O7: in either direction the width is tested first, so the access decodes to the bad-width operation of its
direction, whose effect is the violation and, for a read, the zeros. -/
theorem badWidthAccessOnlyLogs : Obligations.BadWidthAccessOnlyLogs := by
  intro s tx data rest ha hi hx hw
  have hb : badWidth (txOffset tx) (txSize tx) = true := badWidth_iff.mpr hw
  have ha' : (s.beginStep rest).life = .attached := ha
  cases hd : txDir tx with
  | read =>
    have hdec := decode_read (c := s.cfg) (p := s.decodePosition) hd hx
    rw [decodeRead_of_badWidth hb] at hdec
    rw [step_of_decode hi hdec, execRdBadWidth_next.mpr ⟨ha', rfl⟩]
    rfl
  | write =>
    have hdec := decode_write (c := s.cfg) (p := s.decodePosition) hd hx
    rw [decodeWrite_of_badWidth hb] at hdec
    rw [step_of_decode hi hdec, execWrBadWidth_next.mpr ⟨ha', rfl⟩]
    rfl

end Sys2Proof.Machine
end

section
/-! SUPPORT. What a read changes (20_memory.md R60). -/

namespace Sys2Proof.Machine

variable {s : State} {i : Instr}

/-- The effect of a read is confined to the read index, the answer and the events, and a changed read index is that of a
doorbell read which consumed a reply word (20_memory.md R60, 41_doorbell_handshake.md R125). -/
theorem effect_of_isRead (hr : i.op.isRead = true) (s : State) :
    effect i s = { s with
      readIdx := (effect i s).readIdx, rdata := (effect i s).rdata, events := (effect i s).events } ∧
    ((effect i s).readIdx ≠ s.readIdx →
      i.op = .rdDoorbell ∧ s.dbState = .read ∧ s.readIdx < s.replyLen ∧ (effect i s).readIdx = s.readIdx + 1) := by
  cases i with
  | rdDoorbell win =>
    have heff : effect (.rdDoorbell win) s = s.readDoorbell := rfl
    obtain e | ⟨hd, hlt, e⟩ := s.readDoorbell_cases
    · rw [heff, e]
      exact ⟨rfl, fun h => absurd rfl h⟩
    · rw [heff, e]
      exact ⟨rfl, fun _ => ⟨rfl, hd, hlt, rfl⟩⟩
  | rdWrSeq | rdHostDiag | rdIntStatus | rdIntMask | rdHcbSize | rdDiagWin | rdUnimpl | rdBadWidth =>
    exact ⟨rfl, fun h => absurd rfl h⟩
  | _ => cases hr

/-- Settles O50: in a consistent state an operation that completes has its effect. -/
theorem readsChangeOnlyReadIndex : Obligations.ReadsChangeOnlyReadIndex := by
  intro s t i hr hc h
  obtain ⟨-, rfl, -⟩ := exec_effect hc h
  exact effect_of_isRead hr s

end Sys2Proof.Machine
end

section
/-! SUPPORT. Below offset 0x100 the memory window and the I/O window have the same rows, and no operation reads through
which of the two it came (20_memory.md R52, 40_register_decoder.md R103). -/

namespace Sys2Proof

variable {c : Cfg} {p : Position} {win : Window} {data : List Byte} {off : Offset}

/-- An aligned 4-byte read through a window that holds registers goes to the register file. -/
theorem decodeRead_of_aligned (hw : win.holdsRegisters = true) (ha : off.toNat % 4 = 0) :
    decodeRead c win off 4 = decodeRegisterRead c win off := by
  have hb : badWidth off 4 = false := by simp [badWidth, ha]
  cases win with
  | mem => simp [decodeRead, hb]
  | io => simp [decodeRead, hb]
  | diagWin => cases hw
  | absent => cases hw

/-- So does an aligned 4-byte write. -/
theorem decodeWrite_of_aligned (hw : win.holdsRegisters = true) (ha : off.toNat % 4 = 0) :
    decodeWrite c p win off 4 data = decodeRegisterWrite c p win off (wordOfBytes data) := by
  have hb : badWidth off 4 = false := by simp [badWidth, ha]
  cases win with
  | mem => simp [decodeWrite, hb]
  | io => simp [decodeWrite, hb]
  | diagWin => cases hw
  | absent => cases hw

/-- An offset of the I/O window lies in both windows (20_memory.md R50, R67). -/
theorem reaches_io_eq_mem (h : off.toNat < 0x100) : Window.io.reaches off = Window.mem.reaches off := by
  have hio : Window.io.reaches off = true := decide_eq_true h
  have hmem : Window.mem.reaches off = true := decide_eq_true (show off.toNat < 0x10000 by omega)
  rw [hio, hmem]

/-- Both windows find the same register there (40_register_decoder.md R103). -/
theorem registerAt_io_eq_mem (h : off.toNat < 0x100) : c.registerAt .io off = c.registerAt .mem off := by
  rw [Cfg.registerAt, reaches_io_eq_mem h]
  rfl

/-- Both windows have the same unimplemented offsets there (40_register_decoder.md R100). -/
theorem isUnimplemented_io_eq_mem (h : off.toNat < 0x100) : c.isUnimplemented .io off = c.isUnimplemented .mem off := by
  rw [Cfg.isUnimplemented, reaches_io_eq_mem h]
  rfl

end Sys2Proof

namespace Sys2Proof.Machine

variable {off : Offset}

/-- An offset of both windows is logged alike where it is no register (40_register_decoder.md R100, R101). -/
theorem offsetViolation_io_eq_mem (c : Cfg) (h : off.toNat < 0x100) (acc : Access) :
    offsetViolation c .io off acc = offsetViolation c .mem off acc := by
  rw [offsetViolation, isUnimplemented_io_eq_mem h]
  rfl

/-- A read of the register file does the same through either window. -/
theorem exec_decodeRegisterRead_io_eq_mem (h : off.toNat < 0x100) (c : Cfg) (s : State) :
    exec (decodeRegisterRead c .io off) s = exec (decodeRegisterRead c .mem off) s := by
  unfold decodeRegisterRead
  rw [registerAt_io_eq_mem h]
  cases c.registerAt .mem off with
  | none => simp only [exec, execRdUnimpl, offsetViolation_io_eq_mem _ h]
  | some r => cases r <;> rfl

/-- A doorbell write does the same through either window, whichever of the six it is. -/
theorem exec_decodeDoorbellWrite_io_eq_mem (c : Cfg) (p : Position) (v : Word) (s : State) :
    exec (decodeDoorbellWrite c p .io v) s = exec (decodeDoorbellWrite c p .mem v) s := by
  unfold decodeDoorbellWrite
  split
  · rfl
  · split
    · split <;> rfl
    · split <;> rfl
    · rfl

/-- A write-sequence write does the same through either window. -/
theorem exec_decodeWrSeqWrite_io_eq_mem (c : Cfg) (p : Position) (v : Word) (s : State) :
    exec (decodeWrSeqWrite c p .io v) s = exec (decodeWrSeqWrite c p .mem v) s := by
  unfold decodeWrSeqWrite
  split
  · rfl
  · split <;> rfl

/-- A write to the register file does the same through either window. -/
theorem exec_decodeRegisterWrite_io_eq_mem (h : off.toNat < 0x100) (c : Cfg) (p : Position) (v : Word) (s : State) :
    exec (decodeRegisterWrite c p .io off v) s = exec (decodeRegisterWrite c p .mem off v) s := by
  unfold decodeRegisterWrite
  rw [registerAt_io_eq_mem h]
  cases c.registerAt .mem off with
  | none => simp only [exec, execWrUnimpl, offsetViolation_io_eq_mem _ h]
  | some r =>
    cases r with
    | doorbell => exact exec_decodeDoorbellWrite_io_eq_mem c p v s
    | wrSeq => exact exec_decodeWrSeqWrite_io_eq_mem c p v s
    | hostDiag | intStatus | intMask | hcbSize => rfl

/-- Whether data fits a packed descriptor does not depend on the window (30_encoding.md R70). -/
theorem isTransaction_packTx_window (d : Dir) (w w' : Window) (n : Nat) (off : Offset) (data : List Byte) :
    (Input.transaction (packTx d w n off) data).isTransaction =
      (Input.transaction (packTx d w' n off) data).isTransaction := by
  simp only [Input.isTransaction, txDir_packTx, txSize_packTx]

/-- Settles O54: data of another length is refused through both windows; a read and a write decode through each to
operations that do the same. -/
theorem windowsShareRegisters : Obligations.WindowsShareRegisters := by
  intro s d off data rest hlt ha
  cases hmem : (Input.transaction (packTx d .mem 4 off) data).isTransaction with
  | false =>
    have hio := (isTransaction_packTx_window d .io .mem 4 off data).trans hmem
    rw [step_of_decode_error rfl (decode_of_not_isTransaction hmem),
      step_of_decode_error rfl (decode_of_not_isTransaction hio)]
  | true =>
    have hio := (isTransaction_packTx_window d .io .mem 4 off data).trans hmem
    cases d with
    | read =>
      rw [step_of_decode rfl (decode_read (txDir_packTx ..) hmem), step_of_decode rfl (decode_read (txDir_packTx ..) hio)]
      simp only [txWindow_packTx, txOffset_packTx, txSize_packTx, Nat.reduceMod,
        decodeRead_of_aligned (win := .mem) rfl ha, decodeRead_of_aligned (win := .io) rfl ha]
      exact (exec_decodeRegisterRead_io_eq_mem hlt ..).symm
    | write =>
      rw [step_of_decode rfl (decode_write (txDir_packTx ..) hmem),
        step_of_decode rfl (decode_write (txDir_packTx ..) hio)]
      simp only [txWindow_packTx, txOffset_packTx, txSize_packTx, Nat.reduceMod,
        decodeWrite_of_aligned (win := .mem) rfl ha, decodeWrite_of_aligned (win := .io) rfl ha]
      exact (exec_decodeRegisterWrite_io_eq_mem hlt ..).symm

end Sys2Proof.Machine
end

section
/-! SUPPORT. The reads that stream a reply out, one word each, and the acknowledge of the drained reply
(20_memory.md R59, 41_doorbell_handshake.md R125, R127, 42_interrupt_arbiter.md R144). -/

namespace Sys2Proof.Machine

variable {s : State} {win : Window} {w : Half} {v : Word}

/-! ### The two registers' operations -/

/-- A 4-byte read at the doorbell's offset is the doorbell read. -/
theorem decode_encodeRead_doorbell {c : Cfg} (hc : c.wf = true) (hw : win.holdsRegisters = true) (p : Position) :
    decode c p (encodeRead c win .doorbell) = .ok (.rdDoorbell win) := by
  rw [decode_encodeRead p hc .doorbell hw, decodeRegisterRead, (registerAt_offsetOf hc .doorbell hw).1]

/-- A 4-byte write at the interrupt status register's offset is the interrupt status write. -/
theorem decode_encodeWrite_intStatus {c : Cfg} (hc : c.wf = true) (hw : win.holdsRegisters = true) (p : Position)
    (v : Word) : decode c p (encodeWrite c win .intStatus v) = .ok (.wrIntStatus win v) := by
  rw [decode_encodeWrite p hc .intStatus hw, decodeRegisterWrite, (registerAt_offsetOf hc .intStatus hw).1]

/-- A gated and checked effect of an attached, consistent block completes. -/
theorem attached_checked_completes {f : State → State} (ha : s.life = .attached) (hs : s.consistent = true) :
    whenAttached s (fun s => withStateCheck s fun s => .next (f s)) = .next (f s) := by
  rw [whenAttached_of_attached ha, withStateCheck_of_consistent hs]

theorem exec_rdDoorbell (ha : s.life = .attached) (hs : s.consistent = true) :
    exec (.rdDoorbell win) s = .next s.readDoorbell :=
  attached_checked_completes (f := effect (.rdDoorbell win)) ha hs

theorem exec_wrIntStatus (ha : s.life = .attached) (hs : s.consistent = true) :
    exec (.wrIntStatus win v) s = .next s.acknowledge.irqEval :=
  attached_checked_completes (f := effect (.wrIntStatus win v)) ha hs

/-- The reply data field of a register value holds the whole reply word (30_encoding.md R77). -/
theorem replyField_eq (w : Half) : replyField w = w.setWidth 32 := by
  have hwide : (w.setWidth 32).toNat = w.toNat := BitVec.toNat_setWidth_of_le (by decide)
  apply BitVec.eq_of_toNat_eq
  rw [replyField, BitVec.toNat_and, hwide]
  exact (Nat.and_two_pow_sub_one_eq_mod w.toNat 16).trans (Nat.mod_eq_of_lt w.isLt)

/-- A read in READ with a word left answers the used flag with that word and advances the read index. -/
theorem State.readDoorbell_of_word (hd : s.dbState = .read) (hlt : s.readIdx < s.replyLen)
    (hw : s.replyBuf[s.readIdx]? = some w) :
    s.readDoorbell = { s with readIdx := s.readIdx + 1 }.answer (s.cfg.dbUsed ||| w.setWidth 32) := by
  simp only [State.readDoorbell, hd, if_pos hlt, State.replyWord, hw, replyField_eq, Cfg.usedFlag]

/-- A read in READ with no word left answers the used flag alone (41_doorbell_handshake.md R127). -/
theorem State.readDoorbell_of_drained (hd : s.dbState = .read) (he : s.readIdx = s.replyLen) :
    s.readDoorbell = s.answer s.cfg.dbUsed := by
  simp only [State.readDoorbell, hd, if_neg he.not_lt, Cfg.usedFlag]

/-! ### A run of doorbell reads -/

/-- The block is attached, passes the invariant check and streams a reply as long as its buffer. -/
structure Streaming (s : State) : Prop where
  attached : s.life = .attached
  consistent : s.consistent = true
  inRead : s.dbState = .read
  replyLen_eq : s.replyLen = s.replyBuf.length

/-- Advancing the read index within the reply keeps the invariant check (41_doorbell_handshake.md R128). -/
theorem consistent_of_readIdx_le (hs : s.consistent = true) {k : Nat} (hk : k ≤ s.replyLen) :
    State.consistent { s with readIdx := k } = true := by
  simp only [State.consistent, Bool.and_eq_true, decide_eq_true_eq] at hs ⊢
  obtain ⟨⟨hwrite, -⟩, hstatus⟩ := hs
  exact ⟨⟨hwrite, hk⟩, hstatus⟩

/-- All that doorbell reads in READ change: the read index, the answer and the events. -/
def State.afterReads (s : State) (k : Nat) (rd : Option (List Byte)) (es : List Event) : State :=
  { s with readIdx := k, rdata := rd, events := es }

/-- The block still streams after reads, whatever they answered. -/
theorem Streaming.afterReads (h : Streaming s) {k : Nat} (hk : k ≤ s.replyLen) (rd : Option (List Byte))
    (es : List Event) : Streaming (s.afterReads k rd es) :=
  { h with consistent := consistent_of_readIdx_le h.consistent hk }

/-- An index with a word in the buffer is below the reply length (10_state.md R21). -/
theorem Streaming.lt_replyLen (h : Streaming s) {k : Nat} (hw : s.replyBuf[k]? = some w) : k < s.replyLen := by
  rw [h.replyLen_eq]
  exact (List.getElem?_eq_some_iff.mp hw).1

section Reads

variable (h : Streaming s) (hc : s.cfg.wf = true) (hwin : win.holdsRegisters = true)
include h hc hwin

/-- A run that starts with a doorbell read goes on from that read's effect. -/
theorem Streaming.deliver_read (rest : List Input) :
    deliver s (encodeRead s.cfg win .doorbell :: rest) = deliver (s.beginStep rest).readDoorbell rest := by
  refine deliver_cons (decode_encodeRead_doorbell hc hwin _) (exec_rdDoorbell h.attached h.consistent) ?_
  obtain e | ⟨-, -, e⟩ := (s.beginStep rest).readDoorbell_cases
  all_goals exact congrArg State.inputs e

/-- With a word left, the read answers it and advances the read index. -/
theorem Streaming.deliver_read_of_word (hw : s.replyBuf[s.readIdx]? = some w) (rest : List Input) :
    deliver s (encodeRead s.cfg win .doorbell :: rest) =
      deliver (s.afterReads (s.readIdx + 1) (some (bytesOfWord (s.cfg.dbUsed ||| w.setWidth 32))) []) rest := by
  have e : (s.beginStep rest).readDoorbell = _ := State.readDoorbell_of_word h.inRead (h.lt_replyLen hw) hw
  rw [h.deliver_read hc hwin, e]
  rfl

/-- With no word left, it answers the used flag alone. -/
theorem Streaming.deliver_read_of_drained (he : s.readIdx = s.replyLen) (rest : List Input) :
    deliver s (encodeRead s.cfg win .doorbell :: rest) =
      deliver (s.afterReads s.readIdx (some (bytesOfWord s.cfg.dbUsed)) []) rest := by
  have e : (s.beginStep rest).readDoorbell = _ := State.readDoorbell_of_drained h.inRead he
  rw [h.deliver_read hc hwin, e]
  rfl

/-- `k + 1` reads, as long as words are left, advance the read index as often, and the last answers its word. -/
theorem Streaming.deliver_reads_of_word (k : Nat) (hw : s.replyBuf[s.readIdx + k]? = some w) (rest : List Input) :
    deliver s (List.replicate (k + 1) (encodeRead s.cfg win .doorbell) ++ rest) =
      deliver (s.afterReads (s.readIdx + (k + 1)) (some (bytesOfWord (s.cfg.dbUsed ||| w.setWidth 32))) []) rest := by
  induction k generalizing s with
  | zero => exact h.deliver_read_of_word hc hwin hw rest
  | succ k ih =>
    have hlt : s.readIdx + (k + 1) < s.replyBuf.length := (List.getElem?_eq_some_iff.mp hw).1
    obtain ⟨x, hx⟩ : ∃ x, s.replyBuf[s.readIdx]? = some x := ⟨_, List.getElem?_eq_getElem (by omega)⟩
    have hlast : s.replyBuf[s.readIdx + 1 + k]? = some w := by rwa [Nat.add_assoc, Nat.add_comm 1 k]
    have hidx : s.readIdx + 1 + (k + 1) = s.readIdx + (k + 1 + 1) := by omega
    rw [List.replicate_succ, List.cons_append, h.deliver_read_of_word hc hwin hx]
    refine (ih (h.afterReads (h.lt_replyLen hx) _ []) hc hlast).trans ?_
    exact congrArg (fun idx => deliver (s.afterReads idx _ []) rest) hidx

/-- Up to as many reads as words are left advance the read index as often. -/
theorem Streaming.deliver_reads (k : Nat) (hk : s.readIdx + k ≤ s.replyLen) (rest : List Input) :
    ∃ rd es, deliver s (List.replicate k (encodeRead s.cfg win .doorbell) ++ rest) =
      deliver (s.afterReads (s.readIdx + k) rd es) rest := by
  cases k with
  | zero => exact ⟨s.rdata, s.events, rfl⟩
  | succ k =>
    have hlt : s.readIdx + k < s.replyBuf.length := h.replyLen_eq ▸ hk
    exact ⟨_, [], h.deliver_reads_of_word hc hwin k (List.getElem?_eq_getElem hlt) rest⟩

/-- Reads of a drained reply change nothing and answer the used flag alone (41_doorbell_handshake.md R127). -/
theorem Streaming.deliver_reads_of_drained (k : Nat) (he : s.readIdx = s.replyLen) (rest : List Input) :
    deliver s (List.replicate (k + 1) (encodeRead s.cfg win .doorbell) ++ rest) =
      deliver (s.afterReads s.readIdx (some (bytesOfWord s.cfg.dbUsed)) []) rest := by
  induction k generalizing s with
  | zero => exact h.deliver_read_of_drained hc hwin he rest
  | succ k ih =>
    rw [List.replicate_succ, List.cons_append, h.deliver_read_of_drained hc hwin he]
    exact ih (h.afterReads he.le _ []) hc he

/-- The acknowledge of a drained reply ends the reply and clears the doorbell's status bit
(42_interrupt_arbiter.md R144). -/
theorem Streaming.deliver_acknowledge_of_drained (he : s.readIdx = s.replyLen) (v : Word) :
    ∃ t, deliver s [encodeWrite s.cfg win .intStatus v] = .next t ∧
      t.dbState = .none ∧ t.intStatus = s.intStatus &&& ~~~s.cfg.hisDoorbell := by
  have hack : (s.beginStep []).acknowledge = { s.beginStep [] with dbState := .none }.clearDoorbellStatus := by
    obtain ⟨hne, -⟩ | ⟨-, -, e⟩ | ⟨-, hne, -⟩ := (s.beginStep []).acknowledge_cases
    · exact absurd h.inRead hne
    · exact e
    · exact absurd he hne
  have hrun : deliver s [encodeWrite s.cfg win .intStatus v] = deliver (s.beginStep []).acknowledge.irqEval [] :=
    deliver_cons (decode_encodeWrite_intStatus hc hwin _ v) (exec_wrIntStatus h.attached h.consistent) (by simp [hack])
  exact ⟨_, hrun.trans (deliver_nil _), by simp [hack], by simp [hack]⟩

end Reads

/-- Settles O57: the reads up to a word, the reads that drain the reply and those after it, and the acknowledge of the
drained reply. -/
theorem replyStreamsThenAcknowledge : Obligations.ReplyStreamsThenAcknowledge := by
  intro s win v hc hwin ha hs hd h0 hlen
  have hw : win.holdsRegisters = true := by obtain rfl | rfl := hwin <;> rfl
  have h : Streaming s := ⟨ha, hs, hd, hlen⟩
  have hall : s.readIdx + s.replyLen = s.replyLen := by rw [h0, Nat.zero_add]
  refine ⟨fun k w hk => ?word, fun k hk => ?beyond, ?acknowledged⟩
  case word =>
    have hrun := h.deliver_reads_of_word hc hw k (by rwa [h0, Nat.zero_add]) []
    rwa [List.append_nil, h0, Nat.zero_add] at hrun
  case beyond =>
    obtain ⟨m, rfl⟩ := Nat.exists_eq_add_of_lt hk
    obtain ⟨rd, es, hdrain⟩ := h.deliver_reads hc hw s.replyLen hall.le
      (List.replicate (m + 1) (encodeRead s.cfg win .doorbell))
    have hrest := (h.afterReads hall.le rd es).deliver_reads_of_drained hc hw m hall []
    rw [List.append_nil] at hrest
    rw [Nat.add_assoc, List.replicate_add, hdrain]
    refine hrest.trans ?_
    rw [hall]
    rfl
  case acknowledged =>
    obtain ⟨rd, es, hdrain⟩ := h.deliver_reads hc hw s.replyLen hall.le [encodeWrite s.cfg win .intStatus v]
    obtain ⟨t, hrun, hnone, hstatus⟩ :=
      (h.afterReads hall.le rd es).deliver_acknowledge_of_drained hc hw hall v
    exact ⟨t, hdrain.trans hrun, hnone, hstatus⟩

end Sys2Proof.Machine
end

section
/-! SUPPORT. What an access of a window, an offset and a size is, for a read and for a write, and from it that encoding
and decoding are inverse to each other (30_encoding.md R71, R73, R84). -/

namespace Sys2Proof

variable {c : Cfg} {p : Position} {win : Window} {off : Offset} {n : Nat} {r : Reg} {v : Word} {tx : BitVec 24}
  {data : List Byte} {i : Instr}

/-! ### The four kinds of access -/

/-- The operation that reads a register. -/
def Reg.readInstr (r : Reg) (win : Window) : Instr :=
  match r with
  | .doorbell => .rdDoorbell win
  | .wrSeq => .rdWrSeq win
  | .hostDiag => .rdHostDiag win
  | .intStatus => .rdIntStatus win
  | .intMask => .rdIntMask win
  | .hcbSize => .rdHcbSize win

/-- The operation that a write of a value to a register is, at a position of the block. -/
def Reg.writeInstr (r : Reg) (c : Cfg) (p : Position) (win : Window) (v : Word) : Instr :=
  match r with
  | .doorbell => decodeDoorbellWrite c p win v
  | .wrSeq => decodeWrSeqWrite c p win v
  | .hostDiag => .wrHostDiag win v
  | .intStatus => .wrIntStatus win v
  | .intMask => .wrIntMask win v
  | .hcbSize => .wrHcbSize win v

/-- The kinds of access that window, offset and size tell apart, in either direction (40_register_decoder.md R95). -/
inductive AccessKind (c : Cfg) : Window → Offset → Nat → Prop
  /-- not 4 bytes, not aligned, or through the window that does not exist (assumption 6) -/
  | badWidth {win : Window} {off : Offset} {n : Nat} (h : badWidth off n = true ∨ win = .absent) :
    AccessKind c win off n
  /-- through the diagnostic window -/
  | diagWin {off : Offset} (ha : off.toNat % 4 = 0) : AccessKind c .diagWin off 4
  /-- an offset that names no register -/
  | unimpl {win : Window} {off : Offset} (hw : win.holdsRegisters = true) (ha : off.toNat % 4 = 0)
    (hr : c.registerAt win off = none) : AccessKind c win off 4
  /-- a register, at its own offset -/
  | register {win : Window} (r : Reg) (hw : win.holdsRegisters = true) (ha : (c.offsetOf r).toNat % 4 = 0)
    (hr : c.registerAt win (c.offsetOf r) = some r) : AccessKind c win (c.offsetOf r) 4

/-- An aligned 4-byte access through a window that holds registers names a register or none. -/
theorem AccessKind.of_aligned (c : Cfg) (hw : win.holdsRegisters = true) (ha : off.toNat % 4 = 0) :
    AccessKind c win off 4 := by
  cases hr : c.registerAt win off with
  | none => exact .unimpl hw ha hr
  | some r =>
    obtain ⟨-, -, rfl⟩ := registerAt_some hr
    exact .register r hw ha hr

/-- Every access is of one of the kinds. -/
theorem accessKind (c : Cfg) (win : Window) (off : Offset) (n : Nat) : AccessKind c win off n := by
  by_cases hb : badWidth off n = true
  · exact .badWidth (.inl hb)
  · obtain ⟨rfl, ha⟩ : n = 4 ∧ off.toNat % 4 = 0 := by
      rw [badWidth_iff] at hb
      omega
    cases win with
    | mem => exact .of_aligned c rfl ha
    | io => exact .of_aligned c rfl ha
    | diagWin => exact .diagWin ha
    | absent => exact .badWidth (.inr rfl)

/-! ### What each kind decodes to -/

theorem decodeRead_of_badOperand (h : badWidth off n = true ∨ win = .absent) :
    decodeRead c win off n = .rdBadWidth win off n := by
  obtain h | rfl := h
  · exact decodeRead_of_badWidth h
  · exact ite_self _

theorem decodeWrite_of_badOperand (h : badWidth off n = true ∨ win = .absent) :
    decodeWrite c p win off n data = .wrBadWidth win off n data := by
  obtain h | rfl := h
  · exact decodeWrite_of_badWidth h
  · exact ite_self _

theorem decodeRead_diagWin (ha : off.toNat % 4 = 0) : decodeRead c .diagWin off 4 = .rdDiagWin off :=
  if_neg (by simp [badWidth, ha])

theorem decodeWrite_diagWin (ha : off.toNat % 4 = 0) :
    decodeWrite c p .diagWin off 4 data = .wrDiagWin off (wordOfBytes data) :=
  if_neg (by simp [badWidth, ha])

theorem decodeRead_of_unimpl (hw : win.holdsRegisters = true) (ha : off.toNat % 4 = 0)
    (hr : c.registerAt win off = none) : decodeRead c win off 4 = .rdUnimpl win off := by
  rw [decodeRead_of_aligned hw ha, decodeRegisterRead, hr]

theorem decodeWrite_of_unimpl (hw : win.holdsRegisters = true) (ha : off.toNat % 4 = 0)
    (hr : c.registerAt win off = none) :
    decodeWrite c p win off 4 data = .wrUnimpl win off (wordOfBytes data) := by
  rw [decodeWrite_of_aligned hw ha, decodeRegisterWrite, hr]

/-- An offset that names a register is read as that register. -/
theorem decodeRegisterRead_of_some (hr : c.registerAt win off = some r) :
    decodeRegisterRead c win off = r.readInstr win := by
  rw [decodeRegisterRead, hr]
  cases r <;> rfl

/-- An offset that names a register is written as that register. -/
theorem decodeRegisterWrite_of_some (hr : c.registerAt win off = some r) :
    decodeRegisterWrite c p win off v = r.writeInstr c p win v := by
  rw [decodeRegisterWrite, hr]
  cases r <;> rfl

theorem decodeRead_of_register (hw : win.holdsRegisters = true) (ha : off.toNat % 4 = 0)
    (hr : c.registerAt win off = some r) : decodeRead c win off 4 = r.readInstr win := by
  rw [decodeRead_of_aligned hw ha, decodeRegisterRead_of_some hr]

theorem decodeWrite_of_register (hw : win.holdsRegisters = true) (ha : off.toNat % 4 = 0)
    (hr : c.registerAt win off = some r) :
    decodeWrite c p win off 4 data = r.writeInstr c p win (wordOfBytes data) := by
  rw [decodeWrite_of_aligned hw ha, decodeRegisterWrite_of_some hr]

/-! ### The writes that value and position select decode to themselves -/

theorem decodeDoorbellWrite_of_selectsMur (h : c.selectsMur v = true) :
    decodeDoorbellWrite c p win v = .wrDoorbellMur win v :=
  if_pos (eq_of_beq h)

theorem decodeDoorbellWrite_of_selectsData (h : c.selectsData p v = true) :
    decodeDoorbellWrite c p win v = .wrDoorbellData win v := by
  simp only [Cfg.selectsData, Bool.and_eq_true, Bool.not_eq_true', beq_iff_eq, decide_eq_true_eq] at h
  obtain ⟨⟨hm, hd⟩, hlt⟩ := h
  simp only [decodeDoorbellWrite, if_neg (ne_of_beq_false hm), hd, if_pos hlt]

theorem decodeDoorbellWrite_of_selectsOverrun (h : c.selectsOverrun p v = true) :
    decodeDoorbellWrite c p win v = .wrDoorbellOverrun win v := by
  simp only [Cfg.selectsOverrun, Bool.and_eq_true, Bool.not_eq_true', beq_iff_eq, decide_eq_true_eq] at h
  obtain ⟨⟨hm, hd⟩, hle⟩ := h
  simp only [decodeDoorbellWrite, if_neg (ne_of_beq_false hm), hd, if_neg hle.not_gt]

theorem decodeDoorbellWrite_of_selectsHandshake (h : c.selectsHandshake p v = true) :
    decodeDoorbellWrite c p win v = .wrDoorbellHandshake win v := by
  simp only [Cfg.selectsHandshake, Bool.and_eq_true, Bool.not_eq_true', beq_iff_eq] at h
  obtain ⟨⟨hm, hd⟩, hf⟩ := h
  simp only [decodeDoorbellWrite, if_neg (ne_of_beq_false hm), hd, if_pos hf]

theorem decodeDoorbellWrite_of_selectsOtherFn (h : c.selectsOtherFn p v = true) :
    decodeDoorbellWrite c p win v = .wrDoorbellOtherFn win v := by
  simp only [Cfg.selectsOtherFn, Bool.and_eq_true, Bool.not_eq_true', beq_iff_eq, bne_iff_ne] at h
  obtain ⟨⟨hm, hd⟩, hf⟩ := h
  simp only [decodeDoorbellWrite, if_neg (ne_of_beq_false hm), hd, if_neg hf]

theorem decodeDoorbellWrite_of_selectsInRead (h : c.selectsInRead p v = true) :
    decodeDoorbellWrite c p win v = .wrDoorbellInRead win v := by
  simp only [Cfg.selectsInRead, Bool.and_eq_true, Bool.not_eq_true', beq_iff_eq] at h
  obtain ⟨hm, hd⟩ := h
  simp only [decodeDoorbellWrite, if_neg (ne_of_beq_false hm), hd]

theorem decodeWrSeqWrite_of_selectsFlush (h : c.selectsFlush v = true) :
    decodeWrSeqWrite c p win v = .wrWrSeqFlush win v :=
  if_pos (eq_of_beq h)

theorem decodeWrSeqWrite_of_selectsMatch (h : c.selectsMatch p v = true) :
    decodeWrSeqWrite c p win v = .wrWrSeqMatch win v := by
  simp only [Cfg.selectsMatch, Cfg.isExpectedKey, Bool.and_eq_true, Bool.not_eq_true', beq_iff_eq] at h
  obtain ⟨hf, hk⟩ := h
  rw [decodeWrSeqWrite, if_neg (ne_of_beq_false hf), if_pos hk]

theorem decodeWrSeqWrite_of_selectsMismatch (h : c.selectsMismatch p v = true) :
    decodeWrSeqWrite c p win v = .wrWrSeqMismatch win v := by
  simp only [Cfg.selectsMismatch, Cfg.isExpectedKey, Bool.and_eq_true, Bool.not_eq_true'] at h
  obtain ⟨hf, hk⟩ := h
  rw [decodeWrSeqWrite, if_neg (ne_of_beq_false hf), if_neg (ne_of_beq_false hk)]

/-! ### Decoding an encoded operation -/

theorem decode_encodeRead_readInstr (hc : c.wf = true) (hw : win.holdsRegisters = true) (r : Reg) :
    decode c p (encodeRead c win r) = .ok (r.readInstr win) := by
  rw [decode_encodeRead p hc r hw, decodeRegisterRead_of_some (registerAt_offsetOf hc r hw).1]

theorem decode_encodeWrite_writeInstr (hc : c.wf = true) (hw : win.holdsRegisters = true) (r : Reg) (v : Word) :
    decode c p (encodeWrite c win r v) = .ok (r.writeInstr c p win v) := by
  rw [decode_encodeWrite p hc r hw, decodeRegisterWrite_of_some (registerAt_offsetOf hc r hw).1]

/-- A doorbell write that decodes to the given operation does so from its encoding. -/
theorem decode_encodeWrite_doorbell (hc : c.wf = true) (hw : win.holdsRegisters = true)
    (h : decodeDoorbellWrite c p win v = i) : decode c p (encodeWrite c win .doorbell v) = .ok i :=
  h ▸ decode_encodeWrite_writeInstr hc hw .doorbell v

/-- So does a write-sequence write. -/
theorem decode_encodeWrite_wrSeq (hc : c.wf = true) (hw : win.holdsRegisters = true)
    (h : decodeWrSeqWrite c p win v = i) : decode c p (encodeWrite c win .wrSeq v) = .ok i :=
  h ▸ decode_encodeWrite_writeInstr hc hw .wrSeq v

/-- A packed read decodes by its fields, when the size fits its field of the descriptor (30_encoding.md R71). -/
theorem decode_packTx_read (hn : n < 32) :
    decode c p (.transaction (packTx .read win n off) []) = .ok (decodeRead c win off n) := by
  have hx : (Input.transaction (packTx .read win n off) []).isTransaction = true := by simp [Input.isTransaction]
  simpa [txSize_packTx, Nat.mod_eq_of_lt hn] using decode_read (c := c) (p := p) (txDir_packTx ..) hx

/-- So does a packed write with as many bytes of data. -/
theorem decode_packTx_write (hn : n < 32) (hl : data.length = n) :
    decode c p (.transaction (packTx .write win n off) data) = .ok (decodeWrite c p win off n data) := by
  have hx : (Input.transaction (packTx .write win n off) data).isTransaction = true := by
    simp [Input.isTransaction, txSize_packTx, Nat.mod_eq_of_lt hn, hl]
  simpa [txSize_packTx, Nat.mod_eq_of_lt hn] using decode_write (c := c) (p := p) (txDir_packTx ..) hx

/-- The operands of `RD.UNIMPL` and `WR.UNIMPL` (40_register_decoder.md R100). -/
theorem isUnimplOperand_iff :
    c.isUnimplOperand win off = true ↔
      win.holdsRegisters = true ∧ off.toNat % 4 = 0 ∧ c.registerAt win off = none := by
  simp [Cfg.isUnimplOperand, and_assoc]

/-- The operands of `RD.BADWIDTH` and `WR.BADWIDTH` (30_encoding.md R71). -/
theorem isBadWidthOperand_iff :
    isBadWidthOperand win off n = true ↔ n < 32 ∧ (badWidth off n = true ∨ win = .absent) := by
  simp [isBadWidthOperand]

/-- Settles O3: a register access by its register, a doorbell or write-sequence write by its value and the position too;
any other by the fields of its descriptor. -/
theorem decodeInvertsEncode : Obligations.DecodeInvertsEncode := by
  intro c p i hc hw hs
  cases i with
  | rdDoorbell => exact decode_encodeRead_readInstr hc hw .doorbell
  | rdWrSeq => exact decode_encodeRead_readInstr hc hw .wrSeq
  | rdHostDiag => exact decode_encodeRead_readInstr hc hw .hostDiag
  | rdIntStatus => exact decode_encodeRead_readInstr hc hw .intStatus
  | rdIntMask => exact decode_encodeRead_readInstr hc hw .intMask
  | rdHcbSize => exact decode_encodeRead_readInstr hc hw .hcbSize
  | wrDoorbellMur => exact decode_encodeWrite_doorbell hc hw (decodeDoorbellWrite_of_selectsMur hs)
  | wrDoorbellData => exact decode_encodeWrite_doorbell hc hw (decodeDoorbellWrite_of_selectsData hs)
  | wrDoorbellOverrun => exact decode_encodeWrite_doorbell hc hw (decodeDoorbellWrite_of_selectsOverrun hs)
  | wrDoorbellHandshake => exact decode_encodeWrite_doorbell hc hw (decodeDoorbellWrite_of_selectsHandshake hs)
  | wrDoorbellOtherFn => exact decode_encodeWrite_doorbell hc hw (decodeDoorbellWrite_of_selectsOtherFn hs)
  | wrDoorbellInRead => exact decode_encodeWrite_doorbell hc hw (decodeDoorbellWrite_of_selectsInRead hs)
  | wrWrSeqFlush => exact decode_encodeWrite_wrSeq hc hw (decodeWrSeqWrite_of_selectsFlush hs)
  | wrWrSeqMatch => exact decode_encodeWrite_wrSeq hc hw (decodeWrSeqWrite_of_selectsMatch hs)
  | wrWrSeqMismatch => exact decode_encodeWrite_wrSeq hc hw (decodeWrSeqWrite_of_selectsMismatch hs)
  | wrHostDiag _ v => exact decode_encodeWrite_writeInstr hc hw .hostDiag v
  | wrIntStatus _ v => exact decode_encodeWrite_writeInstr hc hw .intStatus v
  | wrIntMask _ v => exact decode_encodeWrite_writeInstr hc hw .intMask v
  | wrHcbSize _ v => exact decode_encodeWrite_writeInstr hc hw .hcbSize v
  | rdDiagWin => rw [encode, decode_packTx_read (by decide), decodeRead_diagWin (of_decide_eq_true hw)]
  | wrDiagWin _ v =>
    rw [encode, decode_packTx_write (by decide) (bytesOfWord_length v), decodeWrite_diagWin (of_decide_eq_true hw),
      wordOfBytes_bytesOfWord]
  | rdUnimpl =>
    obtain ⟨hreg, ha, hnone⟩ := isUnimplOperand_iff.mp hw
    rw [encode, decode_packTx_read (by decide), decodeRead_of_unimpl hreg ha hnone]
  | wrUnimpl _ _ v =>
    obtain ⟨hreg, ha, hnone⟩ := isUnimplOperand_iff.mp hw
    rw [encode, decode_packTx_write (by decide) (bytesOfWord_length v), decodeWrite_of_unimpl hreg ha hnone,
      wordOfBytes_bytesOfWord]
  | rdBadWidth =>
    obtain ⟨hn, hbad⟩ := isBadWidthOperand_iff.mp hw
    rw [encode, decode_packTx_read hn, decodeRead_of_badOperand hbad]
  | wrBadWidth =>
    simp only [Instr.wellFormed, Bool.and_eq_true, decide_eq_true_eq] at hw
    obtain ⟨hn, hbad⟩ := isBadWidthOperand_iff.mp hw.1
    rw [encode, decode_packTx_write hn hw.2, decodeWrite_of_badOperand hbad]
  | evAttach | evHardReset | evDetach => rfl

/-! ### Encoding a decoded operation -/

/-- The operation stands for the input at a position: it is well formed, selected there, and encodes to the input. -/
structure StandsFor (c : Cfg) (p : Position) (i : Instr) (inp : Input) : Prop where
  encode_eq : encode c i = inp
  wellFormed : i.wellFormed c = true
  selected : i.selected c p = true

theorem readInstr_standsFor (hw : win.holdsRegisters = true) (r : Reg) :
    StandsFor c p (r.readInstr win) (encodeRead c win r) := by
  cases r <;> exact ⟨rfl, hw, rfl⟩

/-- Whichever of the six a doorbell write is, it is encoded by its window and value. -/
theorem decodeDoorbellWrite_standsFor (hw : win.holdsRegisters = true) (v : Word) :
    StandsFor c p (decodeDoorbellWrite c p win v) (encodeWrite c win .doorbell v) := by
  have h : encode c (decodeDoorbellWrite c p win v) = encodeWrite c win .doorbell v ∧
      (decodeDoorbellWrite c p win v).wellFormed c = true := by
    unfold decodeDoorbellWrite
    split
    · exact ⟨rfl, hw⟩
    · split
      · split <;> exact ⟨rfl, hw⟩
      · split <;> exact ⟨rfl, hw⟩
      · exact ⟨rfl, hw⟩
  exact ⟨h.1, h.2, decodeDoorbellWrite_selected c p win v⟩

/-- Whichever of the three a write-sequence write is, it is encoded by its window and value. -/
theorem decodeWrSeqWrite_standsFor (hw : win.holdsRegisters = true) (v : Word) :
    StandsFor c p (decodeWrSeqWrite c p win v) (encodeWrite c win .wrSeq v) := by
  have h : encode c (decodeWrSeqWrite c p win v) = encodeWrite c win .wrSeq v ∧
      (decodeWrSeqWrite c p win v).wellFormed c = true := by
    unfold decodeWrSeqWrite
    split
    · exact ⟨rfl, hw⟩
    · split <;> exact ⟨rfl, hw⟩
  exact ⟨h.1, h.2, decodeWrSeqWrite_selected c p win v⟩

theorem writeInstr_standsFor (hw : win.holdsRegisters = true) (r : Reg) (v : Word) :
    StandsFor c p (r.writeInstr c p win v) (encodeWrite c win r v) := by
  cases r with
  | doorbell => exact decodeDoorbellWrite_standsFor hw v
  | wrSeq => exact decodeWrSeqWrite_standsFor hw v
  | hostDiag | intStatus | intMask | hcbSize => exact ⟨rfl, hw, rfl⟩

theorem decodeRead_standsFor (hn : n < 32) :
    StandsFor c p (decodeRead c win off n) (.transaction (packTx .read win n off) []) := by
  obtain hbad | ha | ⟨hw, ha, hr⟩ | ⟨r, hw, ha, hr⟩ := accessKind c win off n
  · rw [decodeRead_of_badOperand hbad]
    exact ⟨rfl, isBadWidthOperand_iff.mpr ⟨hn, hbad⟩, rfl⟩
  · rw [decodeRead_diagWin ha]
    exact ⟨rfl, decide_eq_true ha, rfl⟩
  · rw [decodeRead_of_unimpl hw ha hr]
    exact ⟨rfl, isUnimplOperand_iff.mpr ⟨hw, ha, hr⟩, rfl⟩
  · rw [decodeRead_of_register hw ha hr]
    exact readInstr_standsFor hw r

theorem decodeWrite_standsFor (hn : n < 32) (hl : data.length = n) :
    StandsFor c p (decodeWrite c p win off n data) (.transaction (packTx .write win n off) data) := by
  obtain hbad | ha | ⟨hw, ha, hr⟩ | ⟨r, hw, ha, hr⟩ := accessKind c win off n
  · rw [decodeWrite_of_badOperand hbad]
    exact ⟨rfl, by simp [Instr.wellFormed, isBadWidthOperand_iff, hn, hbad, hl], rfl⟩
  · rw [decodeWrite_diagWin ha]
    exact ⟨by rw [encode, bytesOfWord_wordOfBytes data hl], decide_eq_true ha, rfl⟩
  · rw [decodeWrite_of_unimpl hw ha hr]
    exact ⟨by rw [encode, bytesOfWord_wordOfBytes data hl], isUnimplOperand_iff.mpr ⟨hw, ha, hr⟩, rfl⟩
  · rw [decodeWrite_of_register hw ha hr]
    have h := writeInstr_standsFor (c := c) (p := p) hw r (wordOfBytes data)
    rwa [encodeWrite, bytesOfWord_wordOfBytes data hl] at h

/-- The size of a transaction fits its field. -/
theorem txSize_lt (tx : BitVec 24) : txSize tx < 32 := BitVec.isLt _

/-- All that a transaction can decode to: a read without data, or a write of as many bytes as its size. -/
theorem decode_transaction_ok (h : decode c p (.transaction tx data) = .ok i) :
    (txDir tx = .read ∧ data = [] ∧ i = decodeRead c (txWindow tx) (txOffset tx) (txSize tx)) ∨
    (txDir tx = .write ∧ data.length = txSize tx ∧
      i = decodeWrite c p (txWindow tx) (txOffset tx) (txSize tx) data) := by
  cases hx : (Input.transaction tx data).isTransaction with
  | false =>
    rw [decode_of_not_isTransaction hx] at h
    cases h
  | true =>
    cases hd : txDir tx with
    | read =>
      rw [decode_read hd hx] at h
      cases h
      have hl : data.length = 0 := by simpa [Input.isTransaction, hd] using hx
      exact .inl ⟨rfl, List.length_eq_zero_iff.mp hl, rfl⟩
    | write =>
      rw [decode_write hd hx] at h
      cases h
      exact .inr ⟨rfl, by simpa [Input.isTransaction, hd] using hx, rfl⟩

/-- What an input decodes to stands for it. -/
theorem decode_standsFor {inp : Input} (h : decode c p inp = .ok i) : StandsFor c p i inp := by
  cases inp with
  | transaction tx data =>
    obtain ⟨hd, rfl, rfl⟩ | ⟨hd, hl, rfl⟩ := decode_transaction_ok h
    · have hi := decodeRead_standsFor (c := c) (p := p) (win := txWindow tx) (off := txOffset tx) (txSize_lt tx)
      rwa [← hd, packTx_fields] at hi
    · have hi := decodeWrite_standsFor (c := c) (p := p) (win := txWindow tx) (off := txOffset tx) (txSize_lt tx) hl
      rwa [← hd, packTx_fields] at hi
  | attach | hardReset | detach =>
    cases h
    exact ⟨rfl, rfl, rfl⟩

/-- Settles O4: the input's descriptor is its four fields, and each kind of access keeps them and its data. -/
theorem encodeInvertsDecode : Obligations.EncodeInvertsDecode := by
  intro c p inp i h
  obtain ⟨he, hw, hs⟩ := decode_standsFor h
  exact ⟨he, hw, hs⟩

end Sys2Proof
end

section
/-! SUPPORT. The ordered table of 30_encoding.md R71: the fields that each row's match and mask ask for, and the first
row that matches. -/

namespace Sys2Proof

variable {c : Cfg} {p : Position} {d d' : Dir} {win : Window} {off off' : Offset} {n : Nat} {v : Word} {op : Op}
  {tx : BitVec 24} {data : List Byte}

/-! ### Masking a descriptor -/

/-- Two pairs of bit fields are equal field by field. -/
theorem append_eq_append_iff {w₁ w₂ : Nat} {a a' : BitVec w₁} {b b' : BitVec w₂} :
    a ++ b = a' ++ b' ↔ a = a' ∧ b = b' := by
  constructor
  · intro h
    have hhi := congrArg (BitVec.extractLsb' w₂ w₁) h
    have hlo := congrArg (BitVec.extractLsb' 0 w₂) h
    rw [BitVec.extractLsb'_append_eq_left, BitVec.extractLsb'_append_eq_left] at hhi
    rw [BitVec.extractLsb'_append_eq_right, BitVec.extractLsb'_append_eq_right] at hlo
    exact ⟨hhi, hlo⟩
  · rintro ⟨rfl, rfl⟩
    rfl

/-- Four bit fields are masked and compared field by field. -/
theorem append_and_eq_iff {xd md pd : BitVec 1} {xw mw pw : BitVec 2} {xn mn pn : BitVec 5} {xo mo po : BitVec 16} :
    (xd ++ xw ++ xn ++ xo) &&& (md ++ mw ++ mn ++ mo) = pd ++ pw ++ pn ++ po ↔
      xd &&& md = pd ∧ xw &&& mw = pw ∧ xn &&& mn = pn ∧ xo &&& mo = po := by
  simp only [BitVec.and_append, append_eq_append_iff, and_assoc]

theorem dirCode_and_one_eq_iff : d.code &&& 1#1 = d'.code ↔ d = d' := by
  cases d <;> cases d' <;> decide

/-- The high bit of the window's code is clear exactly for `MEM` and `IO`. -/
theorem windowCode_and_two_eq_iff : win.code &&& 2#2 = Window.mem.code ↔ win.holdsRegisters = true := by
  cases win <;> decide

theorem windowCode_and_three_eq_iff : win.code &&& 3#2 = Window.diagWin.code ↔ win = .diagWin := by
  cases win <;> decide

theorem size_and_mask_eq_iff (hn : n < 32) : BitVec.ofNat 5 n &&& 31#5 = BitVec.ofNat 5 4 ↔ n = 4 := by
  have hm : BitVec.ofNat 5 n &&& 31#5 = BitVec.ofNat 5 n := BitVec.and_allOnes
  rw [hm, ← BitVec.toNat_inj, BitVec.toNat_ofNat, BitVec.toNat_ofNat]
  omega

theorem offset_and_mask_eq_iff : off &&& 0xFFFF#16 = off' ↔ off = off' := by
  rw [show off &&& 0xFFFF#16 = off from BitVec.and_allOnes]

/-- The low two bits of an offset are clear exactly where it is aligned. -/
theorem offset_and_three_eq_iff : off &&& 3#16 = 0 ↔ off.toNat % 4 = 0 := by
  rw [← BitVec.toNat_inj, BitVec.toNat_and]
  exact Eq.congr_left (Nat.and_two_pow_sub_one_eq_mod off.toNat 2)

/-- The mask of a register's rows: direction, a window that holds registers, 4 bytes, the register's offset. -/
theorem packTx_and_registerMask (hn : n < 32) :
    packTx d win n off &&& 0xDFFFFF#24 = packTx d' .mem 4 off' ↔
      d = d' ∧ win.holdsRegisters = true ∧ n = 4 ∧ off = off' := by
  rw [show 0xDFFFFF#24 = 1#1 ++ 2#2 ++ 31#5 ++ 0xFFFF#16 by decide]
  refine append_and_eq_iff.trans ?_
  rw [dirCode_and_one_eq_iff, windowCode_and_two_eq_iff, size_and_mask_eq_iff hn, offset_and_mask_eq_iff]

/-- The mask of the diagnostic window's rows: direction, that window, 4 bytes, aligned. -/
theorem packTx_and_diagWinMask (hn : n < 32) :
    packTx d win n off &&& 0xFF0003#24 = packTx d' .diagWin 4 0 ↔
      d = d' ∧ win = .diagWin ∧ n = 4 ∧ off.toNat % 4 = 0 := by
  rw [show 0xFF0003#24 = 1#1 ++ 3#2 ++ 31#5 ++ 3#16 by decide]
  refine append_and_eq_iff.trans ?_
  rw [dirCode_and_one_eq_iff, windowCode_and_three_eq_iff, size_and_mask_eq_iff hn, offset_and_three_eq_iff]

/-- The mask of the unimplemented rows: direction, a window that holds registers, 4 bytes, aligned. -/
theorem packTx_and_unimplMask (hn : n < 32) :
    packTx d win n off &&& 0xDF0003#24 = packTx d' .mem 4 0 ↔
      d = d' ∧ win.holdsRegisters = true ∧ n = 4 ∧ off.toNat % 4 = 0 := by
  rw [show 0xDF0003#24 = 1#1 ++ 2#2 ++ 31#5 ++ 3#16 by decide]
  refine append_and_eq_iff.trans ?_
  rw [dirCode_and_one_eq_iff, windowCode_and_two_eq_iff, size_and_mask_eq_iff hn, offset_and_three_eq_iff]

/-- The mask of the bad-width rows: direction alone. -/
theorem packTx_and_dirMask : packTx d win n off &&& 0x800000#24 = packTx d' .mem 0 0 ↔ d = d' := by
  rw [Laws.EncodingMatchesTable.packTx_dir, packTx, packTx]
  refine append_eq_append_iff.trans ?_
  simp only [append_eq_append_iff, and_true]
  cases d <;> cases d' <;> decide

/-! ### When a row matches -/

/-- A row matches where its match and mask say so and its condition holds (30_encoding.md R71). -/
theorem Row.matchesTx_eq {row : Row} {P : Prop} [Decidable P] (h : tx &&& row.mask = row.pattern ↔ P) :
    row.matchesTx c p tx v = (decide P && row.op.condition c p v) := by
  rw [Row.matchesTx, beq_eq_decide, decide_eq_decide.mpr h]

/-- A row of the diagnostic window. -/
def diagWinRow (op : Op) (d : Dir) : Row := { op := op, pattern := packTx d .diagWin 4 0, mask := 0xFF0003 }

/-- A row of the offsets that name no register. -/
def unimplRow (op : Op) (d : Dir) : Row := { op := op, pattern := packTx d .mem 4 0, mask := 0xDF0003 }

/-- A row of all other accesses of a direction. -/
def badWidthRow (op : Op) (d : Dir) : Row := { op := op, pattern := packTx d .mem 0 0, mask := 0x800000 }

@[simp] theorem diagWinRow_op : (diagWinRow op d).op = op := rfl
@[simp] theorem unimplRow_op : (unimplRow op d).op = op := rfl
@[simp] theorem badWidthRow_op : (badWidthRow op d).op = op := rfl

theorem registerRow_matchesTx (hn : n < 32) :
    (registerRow op d' off').matchesTx c p (packTx d win n off) v =
      (decide (d = d' ∧ win.holdsRegisters = true ∧ n = 4 ∧ off = off') && op.condition c p v) :=
  Row.matchesTx_eq (packTx_and_registerMask hn)

theorem diagWinRow_matchesTx (hn : n < 32) :
    (diagWinRow op d').matchesTx c p (packTx d win n off) v =
      (decide (d = d' ∧ win = .diagWin ∧ n = 4 ∧ off.toNat % 4 = 0) && op.condition c p v) :=
  Row.matchesTx_eq (packTx_and_diagWinMask hn)

theorem unimplRow_matchesTx (hn : n < 32) :
    (unimplRow op d').matchesTx c p (packTx d win n off) v =
      (decide (d = d' ∧ win.holdsRegisters = true ∧ n = 4 ∧ off.toNat % 4 = 0) && op.condition c p v) :=
  Row.matchesTx_eq (packTx_and_unimplMask hn)

theorem badWidthRow_matchesTx :
    (badWidthRow op d').matchesTx c p (packTx d win n off) v = (decide (d = d') && op.condition c p v) :=
  Row.matchesTx_eq packTx_and_dirMask

/-! ### The table by its registers -/

/-- The row of a register's read. -/
def Reg.readOp (r : Reg) : Op :=
  match r with
  | .doorbell => .rdDoorbell
  | .wrSeq => .rdWrSeq
  | .hostDiag => .rdHostDiag
  | .intStatus => .rdIntStatus
  | .intMask => .rdIntMask
  | .hcbSize => .rdHcbSize

/-- The rows of a register's writes, in the table's order. -/
def Reg.writeOps (r : Reg) : List Op :=
  match r with
  | .doorbell => [.wrDoorbellMur, .wrDoorbellData, .wrDoorbellOverrun, .wrDoorbellHandshake, .wrDoorbellOtherFn,
      .wrDoorbellInRead]
  | .wrSeq => [.wrWrSeqFlush, .wrWrSeqMatch, .wrWrSeqMismatch]
  | .hostDiag => [.wrHostDiag]
  | .intStatus => [.wrIntStatus]
  | .intMask => [.wrIntMask]
  | .hcbSize => [.wrHcbSize]

/-- The rows of one register: its read, then its writes. -/
def Cfg.registerRows (c : Cfg) (r : Reg) : List Row :=
  registerRow r.readOp .read (c.offsetOf r) :: r.writeOps.map fun op => registerRow op .write (c.offsetOf r)

/-- The rows after those of the registers. -/
def catchAllRows : List Row :=
  [diagWinRow .rdDiagWin .read, diagWinRow .wrDiagWin .write, unimplRow .rdUnimpl .read, unimplRow .wrUnimpl .write,
   badWidthRow .rdBadWidth .read, badWidthRow .wrBadWidth .write]

/-- The table is the rows of the registers, one register after the other, then the rest. -/
theorem opcodeRows_eq (c : Cfg) : opcodeRows c = Reg.all.flatMap c.registerRows ++ catchAllRows := rfl

/-- No row of a register matches an access that is not a 4-byte one at its offset. -/
theorem find?_registerRows_of_not {r : Reg} (hn : n < 32)
    (h : ¬ (win.holdsRegisters = true ∧ n = 4 ∧ off = c.offsetOf r)) :
    (c.registerRows r).find? (Row.matchesTx c p (packTx d win n off) v) = none := by
  have hrow : ∀ op d', (registerRow op d' (c.offsetOf r)).matchesTx c p (packTx d win n off) v = false := by
    intro op d'
    simp only [registerRow_matchesTx hn, h, and_false, decide_false, Bool.false_and]
  simp [Cfg.registerRows, hrow]

/-- A read of a register matches its first row. -/
theorem find?_registerRows_read {r : Reg} (hw : win.holdsRegisters = true) :
    ((c.registerRows r).find? (Row.matchesTx c p (packTx .read win 4 (c.offsetOf r)) v)).map Row.op =
      some r.readOp := by
  have hcond : r.readOp.condition c p v = true := by cases r <;> rfl
  have hrow : (registerRow r.readOp .read (c.offsetOf r)).matchesTx c p (packTx .read win 4 (c.offsetOf r)) v := by
    simp [registerRow_matchesTx, hw, hcond]
  rw [Cfg.registerRows, List.find?_cons_of_pos hrow]
  rfl

/-- A write to a register matches the first of its rows for writes whose condition holds. -/
theorem find?_registerRows_write {r : Reg} (hw : win.holdsRegisters = true) :
    ((c.registerRows r).find? (Row.matchesTx c p (packTx .write win 4 (c.offsetOf r)) v)).map Row.op =
      r.writeOps.find? (Op.condition c p v) := by
  have hread : ¬ (registerRow r.readOp .read (c.offsetOf r)).matchesTx c p (packTx .write win 4 (c.offsetOf r)) v := by
    simp [registerRow_matchesTx]
  have hwrite : Row.matchesTx c p (packTx .write win 4 (c.offsetOf r)) v ∘
      (fun op => registerRow op .write (c.offsetOf r)) = Op.condition c p v := by
    funext op
    simp [registerRow_matchesTx, hw]
  rw [Cfg.registerRows, List.find?_cons_of_neg hread, List.find?_map, hwrite, Option.map_map]
  exact Option.map_id'

/-- The conditions of the doorbell's rows, in order, select what a doorbell write decodes to
(41_doorbell_handshake.md R116). -/
theorem find?_doorbell_writeOps :
    Reg.doorbell.writeOps.find? (Op.condition c p v) = some (decodeDoorbellWrite c p win v).op := by
  unfold decodeDoorbellWrite
  split
  · simp_all [Reg.writeOps, Op.condition, Instr.op]
  · split
    · split <;> simp_all [Reg.writeOps, Op.condition, Instr.op]
    · split <;> simp_all [Reg.writeOps, Op.condition, Instr.op]
    · simp_all [Reg.writeOps, Op.condition, Instr.op]

/-- The conditions of the write-sequence rows select what a write-sequence write decodes to; a key is expected only
below progress 6 (43_diagnostic_unlock.md R157, R158). -/
theorem find?_wrSeq_writeOps :
    Reg.wrSeq.writeOps.find? (Op.condition c p v) = some (decodeWrSeqWrite c p win v).op := by
  unfold decodeWrSeqWrite
  split
  · simp_all [Reg.writeOps, Op.condition, Instr.op]
  · split
    · next hk =>
      have hp : p.progress < 6 := Cfg.lt_six_of_expectedKey hk
      simp_all [Reg.writeOps, Op.condition, Instr.op]
    · simp_all [Reg.writeOps, Op.condition, Instr.op]

theorem find?_writeOps (r : Reg) : r.writeOps.find? (Op.condition c p v) = some (r.writeInstr c p win v).op := by
  cases r with
  | doorbell => exact find?_doorbell_writeOps
  | wrSeq => exact find?_wrSeq_writeOps
  | hostDiag | intStatus | intMask | hcbSize => rfl

theorem readInstr_op (r : Reg) : (r.readInstr win).op = r.readOp := by
  cases r <;> rfl

/-! ### The first matching row -/

/-- No two registers have the same offset (00_scope.md R5 item 1). -/
theorem offsetOf_injective (hc : c.wf = true) : Function.Injective c.offsetOf := by
  intro r r' h
  have hr : c.registerAt .mem (c.offsetOf r) = some r := (registerAt_offsetOf hc r rfl).1
  rw [h, (registerAt_offsetOf hc r' rfl).1] at hr
  exact (Option.some.inj hr).symm

/-- A search over the registers that succeeds for one of them alone finds what it finds there. -/
theorem findSome?_regAll {α : Type} {f : Reg → Option α} {r : Reg} {x : α} (hr : f r = some x)
    (hne : ∀ r', r' ≠ r → f r' = none) : Reg.all.findSome? f = some x := by
  cases r <;> simp [Reg.all, hr, hne]

/-- At a register's offset the first matching row is the first one of that register. -/
theorem firstMatchingRow_of_register {r : Reg} (hc : c.wf = true)
    (h : ((c.registerRows r).find? (Row.matchesTx c p (packTx d win 4 (c.offsetOf r)) v)).map Row.op = some op) :
    firstMatchingRow c p (packTx d win 4 (c.offsetOf r)) v = some op := by
  obtain ⟨row, hrow, rfl⟩ := Option.map_eq_some_iff.mp h
  have hall := findSome?_regAll hrow fun r' hne =>
    find?_registerRows_of_not (by decide) fun hacc => hne (offsetOf_injective hc hacc.2.2).symm
  rw [firstMatchingRow, opcodeRows_eq, List.find?_append, List.find?_flatMap, hall]
  rfl

/-- An access to no register is left to the rest of the table. -/
theorem firstMatchingRow_of_no_register (hn : n < 32)
    (h : ∀ r, ¬ (win.holdsRegisters = true ∧ n = 4 ∧ off = c.offsetOf r)) :
    firstMatchingRow c p (packTx d win n off) v =
      (catchAllRows.find? (Row.matchesTx c p (packTx d win n off) v)).map Row.op := by
  have hall : Reg.all.findSome? (fun r => (c.registerRows r).find? (Row.matchesTx c p (packTx d win n off) v)) = none :=
    List.findSome?_eq_none_iff.mpr fun r _ => find?_registerRows_of_not hn (h r)
  rw [firstMatchingRow, opcodeRows_eq, List.find?_append, List.find?_flatMap, hall, Option.none_or]

/-- Of a read's row and a write's row, the one of a direction. -/
def Dir.opOf (d : Dir) (rd wr : Op) : Op :=
  match d with
  | .read => rd
  | .write => wr

/-- A bad-width access through a window that exists is not 4 bytes wide or not aligned (20_memory.md R55). -/
theorem not_aligned_of_badOperand (h : badWidth off n = true ∨ win = .absent) (hw : win ≠ .absent) :
    ¬ (n = 4 ∧ off.toNat % 4 = 0) := by
  have hb := badWidth_iff.mp (h.resolve_right hw)
  omega

theorem firstMatchingRow_of_badOperand (hc : c.wf = true) (hn : n < 32) (h : badWidth off n = true ∨ win = .absent) :
    firstMatchingRow c p (packTx d win n off) v = some (d.opOf .rdBadWidth .wrBadWidth) := by
  have hregs : ¬ (win.holdsRegisters = true ∧ n = 4 ∧ off.toNat % 4 = 0) := fun ⟨hw, hal⟩ =>
    not_aligned_of_badOperand h (by rintro rfl; cases hw) hal
  have hdiag : ¬ (win = .diagWin ∧ n = 4 ∧ off.toNat % 4 = 0) := fun ⟨hw, hal⟩ =>
    not_aligned_of_badOperand h (by simp [hw]) hal
  have hno : ∀ r, ¬ (win.holdsRegisters = true ∧ n = 4 ∧ off = c.offsetOf r) := by
    rintro r ⟨hw, h4, rfl⟩
    exact hregs ⟨hw, h4, by simpa [badWidth] using (registerAt_offsetOf hc r hw).2⟩
  rw [firstMatchingRow_of_no_register hn hno]
  cases d <;> simp [catchAllRows, Dir.opOf, diagWinRow_matchesTx hn, unimplRow_matchesTx hn, badWidthRow_matchesTx,
    hregs, hdiag, Op.condition]

theorem firstMatchingRow_of_diagWin (ha : off.toNat % 4 = 0) :
    firstMatchingRow c p (packTx d .diagWin 4 off) v = some (d.opOf .rdDiagWin .wrDiagWin) := by
  rw [firstMatchingRow_of_no_register (by decide) (by rintro r ⟨hw, -⟩; cases hw)]
  cases d <;> simp [catchAllRows, Dir.opOf, diagWinRow_matchesTx, ha, Op.condition]

theorem firstMatchingRow_of_unimpl (hc : c.wf = true) (hw : win.holdsRegisters = true) (ha : off.toNat % 4 = 0)
    (hr : c.registerAt win off = none) :
    firstMatchingRow c p (packTx d win 4 off) v = some (d.opOf .rdUnimpl .wrUnimpl) := by
  have hno : ∀ r, ¬ (win.holdsRegisters = true ∧ 4 = 4 ∧ off = c.offsetOf r) := by
    rintro r ⟨-, -, rfl⟩
    simp [(registerAt_offsetOf hc r hw).1] at hr
  have hdiag : win ≠ .diagWin := by
    rintro rfl
    cases hw
  rw [firstMatchingRow_of_no_register (by decide) hno]
  cases d <;> simp [catchAllRows, Dir.opOf, diagWinRow_matchesTx, unimplRow_matchesTx, hw, ha, hdiag, Op.condition]

/-- A read matches the row of what it decodes to, whatever value stands beside it. -/
theorem firstMatchingRow_read (hc : c.wf = true) (hn : n < 32) :
    firstMatchingRow c p (packTx .read win n off) v = some (decodeRead c win off n).op := by
  obtain hbad | ha | ⟨hw, ha, hr⟩ | ⟨r, hw, ha, hr⟩ := accessKind c win off n
  · rw [decodeRead_of_badOperand hbad]
    exact firstMatchingRow_of_badOperand hc hn hbad
  · rw [decodeRead_diagWin ha]
    exact firstMatchingRow_of_diagWin ha
  · rw [decodeRead_of_unimpl hw ha hr]
    exact firstMatchingRow_of_unimpl hc hw ha hr
  · rw [decodeRead_of_register hw ha hr, readInstr_op]
    exact firstMatchingRow_of_register hc (find?_registerRows_read hw)

/-- A write matches the row of what it decodes to, with the value its data carries. -/
theorem firstMatchingRow_write (hc : c.wf = true) (hn : n < 32) :
    firstMatchingRow c p (packTx .write win n off) (wordOfBytes data) = some (decodeWrite c p win off n data).op := by
  obtain hbad | ha | ⟨hw, ha, hr⟩ | ⟨r, hw, ha, hr⟩ := accessKind c win off n
  · rw [decodeWrite_of_badOperand hbad]
    exact firstMatchingRow_of_badOperand hc hn hbad
  · rw [decodeWrite_diagWin ha]
    exact firstMatchingRow_of_diagWin ha
  · rw [decodeWrite_of_unimpl hw ha hr]
    exact firstMatchingRow_of_unimpl hc hw ha hr
  · rw [decodeWrite_of_register hw ha hr]
    exact firstMatchingRow_of_register hc ((find?_registerRows_write hw).trans (find?_writeOps r))

/-- Settles O5: by the direction of the transaction and the kind of its access. -/
theorem decodeTakesFirstMatchingRow : Obligations.DecodeTakesFirstMatchingRow := by
  intro c p tx data i hc h
  rw [← packTx_fields tx]
  obtain ⟨hd, -, rfl⟩ | ⟨hd, -, rfl⟩ := decode_transaction_ok h
  · rw [hd]
    exact firstMatchingRow_read hc (txSize_lt tx)
  · rw [hd]
    exact firstMatchingRow_write hc (txSize_lt tx)

end Sys2Proof
end

section
/-! SUPPORT. Every operation but an attach is one effect behind the same gates, so that an operation selected by the
position the decoder sees completes (30_encoding.md R83, R84). -/

namespace Sys2Proof.Machine

variable {s : State} {i : Instr}

/-- The invariant check, for the operations that start with it (41_doorbell_handshake.md R128). -/
def stateGate (o : Op) (s : State) (k : State → Result) : Result :=
  if o.checksState then withStateCheck s k else k s

/-- The gates stand in one order: the life of the block, the invariant check, the selection
(60_exceptions.md R202). -/
theorem exec_gates (hi : i ≠ .evAttach) (s : State) :
    exec i s = whenAttached s fun s => stateGate i.op s fun s => whenSelected i s fun s => .next (effect i s) := by
  cases i with
  | evAttach => exact absurd rfl hi
  | _ => rfl

/-- The invariant check lets an operation through in a consistent state, or where it has no check. -/
theorem stateGate_open {k : State → Result} (h : i.op.checksState = true → s.consistent = true) :
    stateGate i.op s k = k s := by
  cases hk : i.op.checksState with
  | false => simp [stateGate, hk]
  | true => simp [stateGate, hk, withStateCheck_of_consistent (h hk)]

/-- The operations without the invariant check are selected by the key progress at most, which the check does not
touch. -/
theorem selected_position_of_unchecked (hk : i.op.checksState = false)
    (hs : i.selected s.cfg s.decodePosition = true) : i.selected s.cfg s.position = true := by
  have hp : s.decodePosition.progress = s.position.progress := by
    unfold State.decodePosition
    split
    · rfl
    · split <;> rfl
  cases i with
  | wrWrSeqMatch | wrWrSeqMismatch =>
    simpa only [Instr.selected, Cfg.selectsMatch, Cfg.selectsMismatch, Cfg.isExpectedKey, hp] using hs
  | rdDoorbell | wrDoorbellMur | wrDoorbellData | wrDoorbellOverrun | wrDoorbellHandshake | wrDoorbellOtherFn
  | wrDoorbellInRead | wrIntStatus => cases hk
  | _ => exact hs

/-- A selected operation passes its last gate. -/
theorem whenSelected_of_selected {k : State → Result} (h : i.selected s.cfg s.position = true) :
    whenSelected i s k = k s := if_pos h

/-- While attached, an operation that the decoder's position selects completes: with its effect, with the halt of a
debug build, or with its effect on the corrected state. -/
theorem exec_of_selected (ha : s.life = .attached) (hi : i ≠ .evAttach)
    (hs : i.selected s.cfg s.decodePosition = true) : ∃ t, exec i s = .next t := by
  rw [exec_gates hi, whenAttached_of_attached ha]
  cases hk : i.op.checksState with
  | false =>
    rw [stateGate_open (by simp [hk]), whenSelected_of_selected (selected_position_of_unchecked hk hs)]
    exact ⟨_, rfl⟩
  | true =>
    rw [stateGate, if_pos hk]
    obtain ⟨hc, e⟩ | ⟨-, -, e⟩ | ⟨hc, hd, e⟩ := withStateCheck_cases (s := s)
      (k := fun s => whenSelected i s fun s => .next (effect i s))
    · rw [decodePosition_of_consistent hc] at hs
      rw [e, whenSelected_of_selected hs]
      exact ⟨_, rfl⟩
    · exact ⟨_, e⟩
    · have hs' : i.selected s.selfCorrect.cfg s.selfCorrect.position = true := by
        simpa [State.decodePosition, hc, hd] using hs
      rw [e, whenSelected_of_selected hs']
      exact ⟨_, rfl⟩

/-- Settles O23: the gates before the selection are open, and the selection refuses. -/
theorem unselectedWritesRefused : Obligations.UnselectedWritesRefused := by
  intro s i ha hk hs
  have hi : i ≠ .evAttach := by
    rintro rfl
    cases hs
  have hopen : i.op.checksState = true → s.consistent = true := by
    intro hcheck
    obtain ⟨-, hc⟩ | hw := hk
    · exact hc
    · cases i with
      | wrWrSeqFlush | wrWrSeqMatch | wrWrSeqMismatch => cases hcheck
      | _ => cases hw
  rw [exec_gates hi, whenAttached_of_attached ha, stateGate_open hopen, whenSelected_of_not hs]

/-- Settles O9: such data does not decode. -/
theorem malformedInputRefused : Obligations.MalformedInputRefused :=
  fun _ _ _ _ hi hx => step_of_decode_error hi (decode_of_not_isTransaction hx)

end Sys2Proof.Machine
end

section
/-! SUPPORT. What the effects keep: the life of the block and, for all but reads, the answer (10_state.md R30,
30_encoding.md R70). With it, every input of an attached block gets a step (O14). -/

namespace Sys2Proof.Machine

variable {s t : State} {i : Instr} {inp : Input}

/-- The change from `s` to `t` keeps the life of the block and the answer. -/
structure KeepsLifeAndAnswer (s t : State) : Prop where
  life_eq : t.life = s.life
  rdata_eq : t.rdata = s.rdata

theorem softReset_keeps (s : State) : KeepsLifeAndAnswer s s.softReset := by
  rw [State.softReset_eq]
  exact ⟨rfl, rfl⟩

theorem hardReset_keeps (s : State) : KeepsLifeAndAnswer s s.hardReset := by
  rw [State.hardReset_eq]
  exact ⟨rfl, rfl⟩

theorem startHandshake_keeps (s : State) (v : Word) : KeepsLifeAndAnswer s (s.startHandshake v) := by
  rw [State.startHandshake, State.raiseDoorbellInterrupt_eq]
  exact ⟨rfl, rfl⟩

theorem acceptWord_keeps (s : State) (v : Word) : KeepsLifeAndAnswer s (s.acceptWord v) := by
  obtain ⟨ws, -, -, e⟩ | ⟨-, -, e⟩ | ⟨-, e⟩ := State.acceptWord_cases s v
  · rw [e, State.enterRead_eq]
    exact ⟨rfl, rfl⟩
  · rw [e]
    exact ⟨rfl, rfl⟩
  · rw [e]
    exact ⟨rfl, rfl⟩

theorem advanceKey_keeps (s : State) : KeepsLifeAndAnswer s s.advanceKey := by
  obtain ⟨-, e⟩ | ⟨-, e⟩ := State.advanceKey_cases s
  all_goals
    rw [e]
    exact ⟨rfl, rfl⟩

theorem acknowledge_irqEval_keeps (s : State) : KeepsLifeAndAnswer s s.acknowledge.irqEval := by
  rw [State.irqEval_eq]
  obtain ⟨-, e⟩ | ⟨-, -, e⟩ | ⟨-, -, e⟩ := State.acknowledge_cases s
  all_goals
    rw [e]
    exact ⟨rfl, rfl⟩

theorem writeIntMask_keeps (s : State) (win : Window) (v : Word) :
    KeepsLifeAndAnswer s (effect (.wrIntMask win v) s) := by
  simp only [effect, State.irqEval_eq]
  exact ⟨rfl, rfl⟩

theorem writeHostDiag_keeps (s : State) (win : Window) (v : Word) :
    KeepsLifeAndAnswer s (effect (.wrHostDiag win v) s) := by
  simp only [effect]
  split
  · split
    · rw [State.diagResetNow_eq]
      exact ⟨rfl, rfl⟩
    · exact ⟨rfl, rfl⟩
  · exact ⟨rfl, rfl⟩

/-- Every write and every hard reset keeps the life and the answer (30_encoding.md R70). -/
theorem effect_keeps_of_not_isRead (hr : i.op.isRead = false) (ha : i ≠ .evAttach) (hd : i ≠ .evDetach) (s : State) :
    KeepsLifeAndAnswer s (effect i s) := by
  cases i with
  | wrDoorbellMur => exact softReset_keeps s
  | wrDoorbellData _ v => exact acceptWord_keeps s v
  | wrDoorbellHandshake _ v => exact startHandshake_keeps s v
  | wrWrSeqMatch => exact advanceKey_keeps s
  | wrHostDiag win v => exact writeHostDiag_keeps s win v
  | wrIntStatus => exact acknowledge_irqEval_keeps s
  | wrIntMask win v => exact writeIntMask_keeps s win v
  | evHardReset => exact hardReset_keeps s
  | evAttach => exact absurd rfl ha
  | evDetach => exact absurd rfl hd
  | wrDoorbellOverrun | wrDoorbellOtherFn | wrDoorbellInRead | wrWrSeqFlush | wrWrSeqMismatch | wrHcbSize | wrDiagWin
  | wrUnimpl | wrBadWidth => exact ⟨rfl, rfl⟩
  | rdDoorbell | rdWrSeq | rdHostDiag | rdIntStatus | rdIntMask | rdHcbSize | rdDiagWin | rdUnimpl | rdBadWidth =>
    cases hr

/-- Only an attach and a detach change the life of the block (10_state.md R30). -/
theorem effect_life (ha : i ≠ .evAttach) (hd : i ≠ .evDetach) (s : State) : (effect i s).life = s.life := by
  cases hr : i.op.isRead with
  | true => rw [(effect_of_isRead hr s).1]
  | false => exact (effect_keeps_of_not_isRead hr ha hd s).life_eq

/-! ### Every input gets a step -/

/-- Where the invariant check does not halt the block, an operation that is neither attach nor detach leaves it
attached. -/
theorem exec_life (ha : s.life = .attached) (hi : i ≠ .evAttach) (hd : i ≠ .evDetach)
    (hcheck : s.consistent = true ∨ s.cfg.debugBuild = false) (h : exec i s = .next t) : t.life = .attached := by
  obtain ⟨-, ⟨rfl, -⟩ | ⟨-, -, hc, hb⟩ | ⟨rfl, -⟩⟩ := exec_completes h
  · exact (effect_life hi hd s).trans ha
  · simp [hc, hb] at hcheck
  · exact (effect_life hi hd s.selfCorrect).trans ha

/-- A transaction whose data fits it decodes (30_encoding.md R83). -/
theorem exists_decode_of_isTransaction (c : Cfg) (p : Position) (hx : inp.isTransaction = true) :
    ∃ i, decode c p inp = .ok i := by
  cases inp with
  | transaction tx data =>
    cases hd : txDir tx with
    | read => exact ⟨_, decode_read hd hx⟩
    | write => exact ⟨_, decode_write hd hx⟩
  | attach | hardReset | detach => cases hx

/-- Settles O14: the input decodes to an operation that its position selects and that encodes to the input, so it is no
attach, and no detach unless the input is one. -/
theorem attachedBlockAlwaysSteps : Obligations.AttachedBlockAlwaysSteps := by
  intro s inp rest ha hin hkind
  obtain ⟨i, hdec⟩ : ∃ i, decode s.cfg s.decodePosition inp = .ok i := by
    obtain hx | rfl | rfl := hkind
    · exact exists_decode_of_isTransaction _ _ hx
    · exact ⟨_, rfl⟩
    · exact ⟨_, rfl⟩
  obtain ⟨he, -, hs⟩ := decode_standsFor hdec
  have hattach : i ≠ .evAttach := by
    rintro rfl
    subst he
    simp [encode, Input.isTransaction] at hkind
  obtain ⟨t, ht⟩ := exec_of_selected (s := s.beginStep rest) ha hattach hs
  refine ⟨t, (step_of_decode hin hdec).trans ht, fun hcheck hne => ?_⟩
  have hdetach : i ≠ .evDetach := by
    rintro rfl
    exact hne he.symm
  exact exec_life (s := s.beginStep rest) ha hattach hdetach hcheck ht

end Sys2Proof.Machine
end

section
/-! SUPPORT. How long the answers of reads are, and that no other operation answers (30_encoding.md R70). -/

namespace Sys2Proof.Machine

variable {i : Instr}

/-- How many bytes a read asks for (30_encoding.md R70). -/
def answerLength (i : Instr) : Nat :=
  match i with
  | .rdBadWidth _ _ n => n
  | _ => 4

/-- A doorbell read answers one register value in every state (41_doorbell_handshake.md R125). -/
theorem readDoorbell_rdata (s : State) : ∃ v, s.readDoorbell.rdata = some (bytesOfWord v) := by
  unfold State.readDoorbell
  split
  · exact ⟨_, rfl⟩
  · exact ⟨_, rfl⟩
  · split
    · exact ⟨_, rfl⟩
    · exact ⟨_, rfl⟩

/-- Every read leaves an answer as long as it asked for. -/
theorem effect_rdata_of_isRead (hr : i.op.isRead = true) (s : State) :
    ∃ bs, (effect i s).rdata = some bs ∧ bs.length = answerLength i := by
  cases i with
  | rdDoorbell =>
    obtain ⟨v, hv⟩ := readDoorbell_rdata s
    exact ⟨_, hv, bytesOfWord_length v⟩
  | rdBadWidth _ _ n => exact ⟨_, rfl, zeroBytes_length n⟩
  | rdWrSeq | rdHostDiag | rdIntStatus | rdIntMask | rdHcbSize | rdDiagWin | rdUnimpl =>
    exact ⟨_, rfl, bytesOfWord_length _⟩
  | _ => cases hr

/-- No write and no fabric event changes the answer. -/
theorem effect_rdata_of_not_isRead (hr : i.op.isRead = false) (s : State) : (effect i s).rdata = s.rdata := by
  by_cases ha : i = .evAttach
  · rw [ha, effect, State.attachNow_eq]
  · by_cases hd : i = .evDetach
    · obtain ⟨-, -, -, hrd, -⟩ := s.detachNow_keeps
      rw [hd, effect, hrd]
    · exact (effect_keeps_of_not_isRead hr ha hd s).rdata_eq

/-- Settles O51: in a consistent state an operation that completes has its effect. -/
theorem onlyReadsAnswer : Obligations.OnlyReadsAnswer := by
  intro s t i hc h
  obtain ⟨-, rfl, -⟩ := exec_effect hc h
  exact ⟨fun hr => effect_rdata_of_isRead hr s, fun hr => effect_rdata_of_not_isRead hr s⟩

end Sys2Proof.Machine
end

section
/-! SUPPORT. The words written out in 95_test_vectors.md. -/

namespace Sys2Proof

/-- Settles O1: the decoder evaluated on each of the eleven words. -/
theorem specWordsDecode : Obligations.SpecWordsDecode :=
  ⟨rfl, rfl, rfl, rfl, rfl, rfl, rfl, rfl, rfl, rfl, rfl⟩

end Sys2Proof
end

section
/-! SUPPORT. The decoder selects one operation for every transaction (40_register_decoder.md R95, O6), and the six
operations it answers by itself log the access and, for a read, answer zeros (40_register_decoder.md R96 to R101). -/

namespace Sys2Proof.Machine

variable {c : Cfg} {s : State} {win : Window} {off : Offset} {v : Word}

/-- Settles O6: a transaction decodes, and a well-formed selected operation that encodes to it is what it decodes to, by
the round trip of O3. -/
theorem transactionSelectsExactlyOneOperation : Obligations.TransactionSelectsExactlyOneOperation := by
  intro c p inp hc hx
  obtain ⟨i, hdec⟩ := exists_decode_of_isTransaction c p hx
  refine ⟨i, hdec, fun j hw hs he => ?_⟩
  have hj : decode c p (encode c j) = .ok j := decodeInvertsEncode c p j hc hw hs
  rw [he, hdec] at hj
  exact (Except.ok.inj hj).symm

/-! ### The operations the decoder answers by itself -/

/-- Settles O41: while attached each completes with its effect. -/
theorem badWidthOperations : Obligations.BadWidthOperations :=
  fun _ _ _ _ _ ha => ⟨execRdBadWidth_next.mpr ⟨ha, rfl⟩, execWrBadWidth_next.mpr ⟨ha, rfl⟩⟩

/-- Settles O42: while attached each completes with its effect. -/
theorem diagWindowOperations : Obligations.DiagWindowOperations :=
  fun _ _ _ ha => ⟨execRdDiagWin_next.mpr ⟨ha, rfl⟩, execWrDiagWin_next.mpr ⟨ha, rfl⟩⟩

/-- The unimplemented offsets of a window: those of the set that lie inside it (20_memory.md R67). -/
theorem isUnimplemented_iff : c.isUnimplemented win off = true ↔ off.toNat < win.size ∧ off ∈ c.unimplOffsets := by
  simp [Cfg.isUnimplemented, Window.reaches]

theorem offsetViolation_of_unimplemented (h : off.toNat < win.size ∧ off ∈ c.unimplOffsets) (acc : Access) :
    offsetViolation c win off acc = .unimplemented acc :=
  if_pos (isUnimplemented_iff.mpr h)

theorem offsetViolation_of_unknown (h : ¬ (off.toNat < win.size ∧ off ∈ c.unimplOffsets)) (acc : Access) :
    offsetViolation c win off acc = .unknownOffset acc :=
  if_neg (mt isUnimplemented_iff.mp h)

/-- `RD.UNIMPL` and `WR.UNIMPL` log their access in the class of the offset, whichever it is
(40_register_decoder.md R100, R101). -/
theorem exec_unimpl_logs {log : Access → Violation} (ha : s.life = .attached)
    (hlog : ∀ acc, offsetViolation s.cfg win off acc = log acc) :
    exec (.rdUnimpl win off) s = .next { s with
      rdata := some (bytesOfWord 0), events := s.events ++ [.violation (log (.read off))] } ∧
    exec (.wrUnimpl win off v) s = .next { s with
      events := s.events ++ [.violation (log (.write off v))] } := by
  obtain rfl : offsetViolation s.cfg win off = log := funext hlog
  exact ⟨execRdUnimpl_next.mpr ⟨ha, rfl⟩, execWrUnimpl_next.mpr ⟨ha, rfl⟩⟩

/-- Settles O43: the log class is unimplemented for an offset of the set inside the window, and unknown for any other. -/
theorem unimplementedOffsetOperations : Obligations.UnimplementedOffsetOperations := by
  intro s win off v ha
  refine ⟨fun hin hmem => ?unimplemented, fun hout => ?unknown⟩
  case unimplemented => exact exec_unimpl_logs ha (offsetViolation_of_unimplemented ⟨hin, hmem⟩)
  case unknown => exact exec_unimpl_logs ha (offsetViolation_of_unknown (not_and_or.mpr hout))

end Sys2Proof.Machine
end

section
/-! SUPPORT. When a doorbell write is selected as each of the six, and what it decodes to
(41_doorbell_handshake.md R116). -/

namespace Sys2Proof

variable {c : Cfg} {p : Position} {v : Word}

theorem selectsMur_iff : c.selectsMur v = true ↔ c.fn v = c.fnMur := by simp [Cfg.selectsMur]

theorem selectsData_iff :
    c.selectsData p v = true ↔ c.fn v ≠ c.fnMur ∧ p.dbState = .write ∧ p.writeIdx < p.capacity := by
  simp [Cfg.selectsData, Cfg.selectsMur, and_assoc]

theorem selectsOverrun_iff :
    c.selectsOverrun p v = true ↔ c.fn v ≠ c.fnMur ∧ p.dbState = .write ∧ p.capacity ≤ p.writeIdx := by
  simp [Cfg.selectsOverrun, Cfg.selectsMur, and_assoc]

theorem selectsHandshake_iff :
    c.selectsHandshake p v = true ↔ c.fn v ≠ c.fnMur ∧ p.dbState = .none ∧ c.fn v = c.fnHandshake := by
  simp [Cfg.selectsHandshake, Cfg.selectsMur, and_assoc]

theorem selectsOtherFn_iff :
    c.selectsOtherFn p v = true ↔ c.fn v ≠ c.fnMur ∧ p.dbState = .none ∧ c.fn v ≠ c.fnHandshake := by
  simp [Cfg.selectsOtherFn, Cfg.selectsMur, and_assoc]

theorem selectsInRead_iff : c.selectsInRead p v = true ↔ c.fn v ≠ c.fnMur ∧ p.dbState = .read := by
  simp [Cfg.selectsInRead, Cfg.selectsMur]

/-- Settles O8: the tests of R116 are the selections of the six writes, and a selected write decodes to itself. -/
theorem doorbellWriteDecodesInOrder : Obligations.DoorbellWriteDecodesInOrder := by
  intro c p win v hc hwin
  have hw : win.holdsRegisters = true := by obtain rfl | rfl := hwin <;> rfl
  refine ⟨fun hm => ?mur, fun hm => ⟨fun hd hlt => ?data, fun hd hge => ?overrun, fun hd hf => ?handshake,
    fun hd hf => ?otherFn, fun hd => ?inRead⟩⟩
  all_goals apply decode_encodeWrite_doorbell hc hw
  case mur => exact decodeDoorbellWrite_of_selectsMur (selectsMur_iff.mpr hm)
  case data => exact decodeDoorbellWrite_of_selectsData (selectsData_iff.mpr ⟨hm, hd, hlt⟩)
  case overrun => exact decodeDoorbellWrite_of_selectsOverrun (selectsOverrun_iff.mpr ⟨hm, hd, Nat.le_of_not_lt hge⟩)
  case handshake => exact decodeDoorbellWrite_of_selectsHandshake (selectsHandshake_iff.mpr ⟨hm, hd, hf⟩)
  case otherFn => exact decodeDoorbellWrite_of_selectsOtherFn (selectsOtherFn_iff.mpr ⟨hm, hd, hf⟩)
  case inRead => exact decodeDoorbellWrite_of_selectsInRead (selectsInRead_iff.mpr ⟨hm, hd⟩)

end Sys2Proof
end

section
/-! SUPPORT. The effect of the doorbell's operations where the invariant check passes
(41_doorbell_handshake.md R117 to R125). -/

namespace Sys2Proof.Machine

variable {s : State} {i : Instr} {win : Window} {v : Word}

/-- While attached and consistent, an operation that the value and the state select has its effect. -/
theorem exec_of_consistent (ha : s.life = .attached) (hi : i ≠ .evAttach) (hs : s.consistent = true)
    (hsel : i.selected s.cfg s.position = true) : exec i s = .next (effect i s) := by
  rw [exec_gates hi, whenAttached_of_attached ha, stateGate_open fun _ => hs, whenSelected_of_selected hsel]

/-- What the invariant check asks of a state (41_doorbell_handshake.md R128). -/
theorem State.consistent_iff :
    s.consistent = true ↔ s.writeIdx ≤ s.capacity ∧ s.readIdx ≤ s.replyLen ∧
      (s.dbState = .read → s.intStatus &&& s.cfg.hisDoorbell ≠ 0) := by
  simp [State.consistent, hasBit, and_assoc, imp_iff_not_or]

/-! ### The doorbell read -/

/-- A read in NONE answers the code of the operational state. -/
theorem State.readDoorbell_of_none (hd : s.dbState = .none) :
    s.readDoorbell = s.answer (s.cfg.iocCode s.opState) := by
  simp only [State.readDoorbell, hd]

/-- A read in WRITE answers the used flag alone. -/
theorem State.readDoorbell_of_write (hd : s.dbState = .write) : s.readDoorbell = s.answer s.cfg.dbUsed := by
  simp only [State.readDoorbell, hd, Cfg.usedFlag]

/-- A read in READ below the reply length answers the used flag with the reply word at the read index. -/
theorem State.readDoorbell_of_lt (hd : s.dbState = .read) (hlt : s.readIdx < s.replyLen) :
    s.readDoorbell = { s with readIdx := s.readIdx + 1 }.answer (s.cfg.dbUsed ||| s.replyWord.setWidth 32) := by
  simp only [State.readDoorbell, hd, if_pos hlt, replyField_eq, Cfg.usedFlag]

/-- A read in READ with no word left answers the used flag alone, also where the index has passed the length. -/
theorem State.readDoorbell_of_not_lt (hd : s.dbState = .read) (hge : ¬ s.readIdx < s.replyLen) :
    s.readDoorbell = s.answer s.cfg.dbUsed := by
  simp only [State.readDoorbell, hd, if_neg hge, Cfg.usedFlag]

/-- Settles O15: by the doorbell state, and in READ by whether a word is left. -/
theorem doorbellReadEffect : Obligations.DoorbellReadEffect := by
  intro s win ha hs
  rw [exec_rdDoorbell ha hs]
  refine ⟨fun hd => ?none, fun hd => ?write, fun hd hlt => ⟨fun w hw => ?word, s.replyWord, ?someWord⟩,
    fun hd hge => ?drained⟩
  case none => rw [State.readDoorbell_of_none hd]; rfl
  case write => rw [State.readDoorbell_of_write hd]; rfl
  case word => rw [State.readDoorbell_of_word hd hlt hw]; rfl
  case someWord => rw [State.readDoorbell_of_lt hd hlt]; rfl
  case drained => rw [State.readDoorbell_of_not_lt hd hge]; rfl

/-! ### The doorbell writes -/

/-- Settles O16: a selected message-unit reset has the effect of a soft reset. -/
theorem messageUnitResetEffect : Obligations.MessageUnitResetEffect := by
  intro s win v ha hs hm
  rw [exec_of_consistent (i := .wrDoorbellMur win v) ha nofun hs (selectsMur_iff.mpr hm)]
  exact congrArg Host.Outcome.next s.softReset_eq

/-- All that starting a handshake does (41_doorbell_handshake.md R118). -/
theorem State.startHandshake_eq (s : State) (v : Word) :
    s.startHandshake v = { s with
      dbState := .write, capacity := s.cfg.add v, writeIdx := 0, outBuf := []
      intStatus := s.intStatus ||| s.cfg.hisDoorbell
      irqLine := lineAfter s.msixInUse (s.cfg.asserted (s.intStatus ||| s.cfg.hisDoorbell) s.intMask) s.irqLine
      events := s.events ++
        irqEvents s.msixInUse (s.cfg.asserted (s.intStatus ||| s.cfg.hisDoorbell) s.intMask) } := by
  rw [State.startHandshake, State.raiseDoorbellInterrupt_eq]

/-- Settles O17: a selected handshake request starts a handshake. -/
theorem handshakeStartEffect : Obligations.HandshakeStartEffect := by
  intro s win v ha hs hd hf hne
  have hm : s.cfg.fn v ≠ s.cfg.fnMur := hf ▸ hne
  rw [exec_of_consistent (i := .wrDoorbellHandshake win v) ha nofun hs (selectsHandshake_iff.mpr ⟨hm, hd, hf⟩)]
  exact congrArg Host.Outcome.next (s.startHandshake_eq v)

/-- A data write in WRITE below the capacity accepts its word. -/
theorem exec_wrDoorbellData (ha : s.life = .attached) (hs : s.consistent = true) (hd : s.dbState = .write)
    (hm : s.cfg.fn v ≠ s.cfg.fnMur) (hlt : s.writeIdx < s.capacity) :
    exec (.wrDoorbellData win v) s = .next (s.acceptWord v) :=
  exec_of_consistent ha nofun hs (selectsData_iff.mpr ⟨hm, hd, hlt⟩)

/-- A word that is not the last is appended and nothing else happens. -/
theorem State.acceptWord_of_not_last (h : s.writeIdx + 1 ≠ s.capacity) :
    s.acceptWord v = { s with outBuf := s.outBuf ++ [v], writeIdx := s.writeIdx + 1 } := if_neg h

/-- The last word is appended and completes the message. -/
theorem State.acceptWord_of_last (h : s.writeIdx + 1 = s.capacity) :
    s.acceptWord v = State.msgComplete { s with outBuf := s.outBuf ++ [v], writeIdx := s.writeIdx + 1 } := if_pos h

/-- Settles O18: a selected data write that is not the last accepts its word. -/
theorem dataWordAppended : Obligations.DataWordAppended := by
  intro s win v ha hs hd hm hlt
  rw [exec_wrDoorbellData ha hs hd hm (by omega), State.acceptWord_of_not_last hlt.ne]

/-- A message that the handler answers with words enters READ. -/
theorem State.msgComplete_of_words {ws : List Half} (h : s.cfg.handler.answer s.outBuf = .words ws) :
    s.msgComplete = s.enterRead ws := by
  simp only [State.msgComplete, h]

/-- A message that the handler does not answer returns to NONE. -/
theorem State.msgComplete_of_noReply (h : s.cfg.handler.answer s.outBuf = .noReply) :
    s.msgComplete = { s with dbState := .none } := by
  simp only [State.msgComplete, h]

/-- Settles O19: the last word completes the message, by the handler's answer to it. -/
theorem lastWordCompletesMessage : Obligations.LastWordCompletesMessage := by
  intro s win v ha hs hd hm hlast
  rw [exec_wrDoorbellData ha hs hd hm (by omega), State.acceptWord_of_last hlast]
  refine ⟨fun ws h => ?reply, fun h => ?noReply⟩
  case reply => rw [State.msgComplete_of_words h, State.enterRead_eq]
  case noReply => rw [State.msgComplete_of_noReply h]

/-- Settles O20: a selected overrun has its effect. -/
theorem overrunReturnsToNone : Obligations.OverrunReturnsToNone := by
  intro s win v ha hs hd hm hle
  exact exec_of_consistent ha nofun hs (selectsOverrun_iff.mpr ⟨hm, hd, hle⟩)

/-- Settles O21: each of the two, where it is selected, only logs. -/
theorem ignoredDoorbellWritesOnlyLog : Obligations.IgnoredDoorbellWritesOnlyLog := by
  intro s win v ha hs hm
  refine ⟨fun hd hf => ?otherFn, fun hd => ?inRead⟩
  case otherFn => exact exec_of_consistent ha nofun hs (selectsOtherFn_iff.mpr ⟨hm, hd, hf⟩)
  case inRead => exact exec_of_consistent ha nofun hs (selectsInRead_iff.mpr ⟨hm, hd⟩)

end Sys2Proof.Machine
end

section
/-! SUPPORT. What a failed invariant check does to an operation that begins with it
(41_doorbell_handshake.md R128, 60_exceptions.md R200). -/

namespace Sys2Proof.Machine

variable {s : State} {i : Instr}

/-- No fabric event begins with the check. -/
theorem ne_evAttach_of_checksState (hk : i.op.checksState = true) : i ≠ .evAttach := by
  rintro rfl
  cases hk

/-- While attached, an operation that begins with the check is the check, then the selected effect. -/
theorem exec_of_checksState (ha : s.life = .attached) (hk : i.op.checksState = true) :
    exec i s = withStateCheck s fun s => whenSelected i s fun s => .next (effect i s) := by
  rw [exec_gates (ne_evAttach_of_checksState hk), whenAttached_of_attached ha, stateGate, if_pos hk]

/-- A debug build halts. -/
theorem exec_of_debug (ha : s.life = .attached) (hk : i.op.checksState = true) (hs : s.consistent = false)
    (hb : s.cfg.debugBuild = true) : exec i s = .next s.raiseFatal := by
  rw [exec_of_checksState ha hk, withStateCheck_of_debug hs hb]

/-- Another build does what it does from the corrected state. -/
theorem exec_of_corrected (ha : s.life = .attached) (hk : i.op.checksState = true) (hs : s.consistent = false)
    (hb : s.cfg.debugBuild = false) : exec i s = exec i s.selfCorrect := by
  have ha' : s.selfCorrect.life = .attached := ha
  rw [exec_of_checksState ha hk, withStateCheck_of_corrected hs hb, exec_of_checksState ha' hk,
    withStateCheck_of_consistent s.selfCorrect_consistent]

/-- Settles O22: the premise is a failed check, which halts a debug build and corrects another. -/
theorem failedStateCheckHaltsOrCorrects : Obligations.FailedStateCheckHaltsOrCorrects := by
  intro s i ha hk hfail
  have hs : s.consistent = false := Bool.eq_false_iff.mpr (mt State.consistent_iff.mp hfail)
  exact ⟨exec_of_debug ha hk hs, fun hb => ⟨rfl, s.selfCorrect_consistent, exec_of_corrected ha hk hs hb⟩⟩

end Sys2Proof.Machine
end

section
/-! SUPPORT. Which operations change the doorbell state, and to what (41_doorbell_handshake.md R115). -/

namespace Sys2Proof.Machine

variable {s : State} {i : Instr} {win : Window} {v : Word}

/-- The doorbell state that a completed message leaves, by the handler's answer to it (41_doorbell_handshake.md R120). -/
def dbStateOfReply (r : Reply) : DbState :=
  match r with
  | .words _ => .read
  | .noReply => .none

/-- Completing a message keeps the outbound buffer, the write index and the capacity, and leaves READ or NONE. -/
theorem State.msgComplete_doorbell (s : State) :
    s.msgComplete.outBuf = s.outBuf ∧ s.msgComplete.writeIdx = s.writeIdx ∧ s.msgComplete.capacity = s.capacity ∧
    s.msgComplete.dbState = dbStateOfReply (s.cfg.handler.answer s.outBuf) := by
  obtain ⟨ws, ha, e⟩ | ⟨ha, e⟩ := s.msgComplete_cases
  · rw [e, State.enterRead_eq, ha]
    exact ⟨rfl, rfl, rfl, rfl⟩
  · rw [e, ha]
    exact ⟨rfl, rfl, rfl, rfl⟩

/-- A data write leaves WRITE only with the last word, and then for the state of the handler's answer. -/
theorem State.acceptWord_dbState (s : State) (v : Word) :
    (s.writeIdx + 1 = s.capacity ∧
      (s.acceptWord v).dbState = dbStateOfReply (s.cfg.handler.answer (s.acceptWord v).outBuf)) ∨
    (s.acceptWord v).dbState = s.dbState := by
  by_cases h : s.writeIdx + 1 = s.capacity
  · obtain ⟨hout, -, -, hdb⟩ :=
      State.msgComplete_doorbell { s with outBuf := s.outBuf ++ [v], writeIdx := s.writeIdx + 1 }
    rw [State.acceptWord_of_last h, hout]
    exact .inl ⟨h, hdb⟩
  · rw [State.acceptWord_of_not_last h]
    exact .inr rfl

/-- A host diagnostic write does nothing or resets the block (43_diagnostic_unlock.md R161). -/
theorem effect_wrHostDiag_cases (s : State) (win : Window) (v : Word) :
    effect (.wrHostDiag win v) s = s ∨ effect (.wrHostDiag win v) s = s.diagResetNow := by
  simp only [effect]
  split
  · split
    · exact .inr rfl
    · exact .inl rfl
  · exact .inl rfl

/-- The operations that can change the doorbell state: those of the table of R115, and the two that begin and end the
block's life. -/
def changesDbState : List Op :=
  [.wrDoorbellMur, .wrDoorbellHandshake, .wrDoorbellData, .wrDoorbellOverrun, .wrIntStatus, .wrHostDiag, .evHardReset,
    .evAttach, .evDetach]

/-- No other operation does. -/
theorem effect_dbState (h : i.op ∉ changesDbState) (s : State) : (effect i s).dbState = s.dbState := by
  cases i with
  | rdDoorbell | rdWrSeq | rdHostDiag | rdIntStatus | rdIntMask | rdHcbSize | rdDiagWin | rdUnimpl | rdBadWidth =>
    rw [(effect_of_isRead rfl s).1]
  | wrWrSeqMatch =>
    obtain ⟨-, e⟩ | ⟨-, e⟩ := s.advanceKey_cases
    all_goals rw [effect, e]
  | wrIntMask => exact State.irqEval_dbState _
  | wrDoorbellOtherFn | wrDoorbellInRead | wrWrSeqFlush | wrWrSeqMismatch | wrHcbSize | wrDiagWin | wrUnimpl
  | wrBadWidth => rfl
  | wrDoorbellMur | wrDoorbellHandshake | wrDoorbellData | wrDoorbellOverrun | wrIntStatus | wrHostDiag | evHardReset
  | evAttach | evDetach => exact absurd (by simp [changesDbState, Instr.op]) h

/-- Settles O52: in a consistent state an operation that completes has its effect, and each of those that can change the
doorbell state makes its transitions of the table. -/
theorem doorbellTransitionsAreTabled : Obligations.DoorbellTransitionsAreTabled := by
  intro s t i ha hs h hl hne
  obtain ⟨hallows, rfl, hsel⟩ := exec_effect hs h
  cases i with
  | wrDoorbellMur => exact .inr (.inr (.inr (.inr ⟨.inl rfl, congrArg State.dbState s.softReset_eq⟩)))
  | evHardReset => exact .inr (.inr (.inr (.inr ⟨.inr (.inr rfl), congrArg State.dbState s.hardReset_eq⟩)))
  | wrHostDiag win v =>
    obtain e | e := effect_wrHostDiag_cases s win v
    · exact absurd (congrArg State.dbState e) hne
    · rw [e, State.diagResetNow_eq]
      exact .inr (.inr (.inr (.inr ⟨.inr (.inl rfl), rfl⟩)))
  | wrDoorbellHandshake _ v =>
    obtain ⟨-, hd, -⟩ := selectsHandshake_iff.mp hsel
    exact .inl ⟨hd, rfl, congrArg State.dbState (s.startHandshake_eq v)⟩
  | wrDoorbellData _ v =>
    obtain ⟨-, hd, -⟩ := selectsData_iff.mp hsel
    obtain ⟨hlast, e⟩ | e := s.acceptWord_dbState v
    · exact .inr (.inl ⟨hd, rfl, hlast, e⟩)
    · exact absurd e hne
  | wrDoorbellOverrun =>
    obtain ⟨-, hd, hle⟩ := selectsOverrun_iff.mp hsel
    exact .inr (.inr (.inl ⟨hd, rfl, hle, rfl⟩))
  | wrIntStatus win v =>
    have hdb : (effect (.wrIntStatus win v) s).dbState = s.acknowledge.dbState := State.irqEval_dbState _
    rw [hdb] at hne ⊢
    obtain ⟨-, e⟩ | ⟨hd, hdrained, e⟩ | ⟨-, -, e⟩ := s.acknowledge_cases
    · exact absurd (congrArg State.dbState e) hne
    · exact .inr (.inr (.inr (.inl ⟨hd, rfl, hdrained, congrArg State.dbState e⟩)))
    · exact absurd (congrArg State.dbState e) hne
  | evAttach =>
    obtain ⟨-, hdet⟩ | ⟨hi, -⟩ := hallows
    · simp [ha] at hdet
    · exact absurd rfl hi
  | evDetach =>
    obtain ⟨hdet, -⟩ := s.detachNow_keeps
    simp [effect, hdet] at hl
  | _ => exact absurd (effect_dbState (by simp [changesDbState, Instr.op]) s) hne

end Sys2Proof.Machine
end

section
/-! SUPPORT. A soft reset brings the block to rest, and an acknowledge leaves it there (41_doorbell_handshake.md R117,
70_reset_and_hazards.md R225, 42_interrupt_arbiter.md R144). -/

namespace Sys2Proof.Machine

variable {s : State} {i : Instr} {win : Window} {v : Word} {msix : Bool}

/-- The block is attached, READY and idle, with no status bit and, in legacy mode, the line low; it passes the invariant
check. -/
structure AtRest (msix : Bool) (s : State) : Prop where
  attached : s.life = .attached
  ready : s.opState = .ready
  idle : s.dbState = .none
  status : s.intStatus = 0
  delivery : s.msixInUse = msix
  line : msix = false → s.irqLine = false
  consistent : s.consistent = true

/-- Rest does not depend on the pending inputs, the answer and the events. -/
theorem AtRest.with_output (h : AtRest msix s) (inps : List Input) (rd : Option (List Byte)) (es : List Event) :
    AtRest msix { s with inputs := inps, rdata := rd, events := es } := { h with }

/-- A soft reset brings an attached block to rest, whatever its state. -/
theorem softReset_atRest (ha : s.life = .attached) : AtRest s.msixInUse s.softReset := by
  have hline : s.msixInUse = false → lineAfter s.msixInUse false s.irqLine = false := fun hm => by rw [hm]; rfl
  rw [State.softReset_eq]
  exact { attached := ha, ready := rfl, idle := rfl, status := rfl, delivery := rfl, line := hline, consistent := rfl }

/-- A soft reset leaves the pending inputs. -/
theorem softReset_inputs (s : State) : s.softReset.inputs = s.inputs := by rw [State.softReset_eq]

/-- An acknowledge leaves a block at rest there. -/
theorem AtRest.acknowledge (h : AtRest msix s) : AtRest msix s.acknowledge.irqEval := by
  have hack : s.acknowledge = s.clearDoorbellStatus := by
    obtain ⟨-, e⟩ | ⟨hd, -⟩ | ⟨hd, -⟩ := s.acknowledge_cases
    · exact e
    · simp [h.idle] at hd
    · simp [h.idle] at hd
  have hstatus : s.clearDoorbellStatus.intStatus = 0 := by simp [h.status]
  have hlevel : s.clearDoorbellStatus.asserted = false := by simp [State.asserted, h.status]
  obtain ⟨hwrite, hread, -⟩ := State.consistent_iff.mp h.consistent
  have hcons : s.clearDoorbellStatus.consistent = true :=
    State.consistent_iff.mpr ⟨hwrite, hread, fun hd => absurd hd (by simp [h.idle])⟩
  have hline : msix = false → lineAfter s.msixInUse false s.irqLine = false := fun hm => by
    rw [h.delivery, hm]
    rfl
  rw [hack, State.irqEval_eq, hlevel]
  exact { attached := h.attached, ready := h.ready, idle := h.idle, status := hstatus, delivery := h.delivery
          line := hline, consistent := hcons }

/-- Where a failed invariant check does not halt the block, an operation that is selected at every position has its
effect on the state or on the corrected state. -/
theorem exec_of_not_halting (ha : s.life = .attached) (hk : i.op.checksState = true)
    (hsel : ∀ p, i.selected s.cfg p = true) (hcheck : s.consistent = true ∨ s.cfg.debugBuild = false) :
    exec i s = .next (effect i s) ∨ exec i s = .next (effect i s.selfCorrect) := by
  have hi := ne_evAttach_of_checksState hk
  cases hs : s.consistent with
  | true => exact .inl (exec_of_consistent ha hi hs (hsel _))
  | false =>
    have hb : s.cfg.debugBuild = false := by simpa [hs] using hcheck
    have hcor : exec i s.selfCorrect = .next (effect i s.selfCorrect) :=
      exec_of_consistent ha hi s.selfCorrect_consistent (hsel _)
    exact .inr ((exec_of_corrected ha hk hs hb).trans hcor)

/-- A message-unit reset brings an attached block to rest, unless the check of a debug build halts it. -/
theorem exec_wrDoorbellMur_atRest (ha : s.life = .attached) (hm : s.cfg.fn v = s.cfg.fnMur)
    (hcheck : s.consistent = true ∨ s.cfg.debugBuild = false) :
    ∃ t, exec (.wrDoorbellMur win v) s = .next t ∧ AtRest s.msixInUse t ∧ t.inputs = s.inputs := by
  have hsel : ∀ p, (Instr.wrDoorbellMur win v).selected s.cfg p = true := fun _ => selectsMur_iff.mpr hm
  obtain h | h := exec_of_not_halting ha rfl hsel hcheck
  · exact ⟨_, h, softReset_atRest ha, softReset_inputs s⟩
  · exact ⟨_, h, softReset_atRest (s := s.selfCorrect) ha, softReset_inputs s.selfCorrect⟩

/-- A delivered acknowledge leaves a block at rest there. -/
theorem AtRest.deliver_acknowledge (h : AtRest msix s) (hc : s.cfg.wf = true) (hw : win.holdsRegisters = true)
    (v : Word) : ∃ t, deliver s [encodeWrite s.cfg win .intStatus v] = .next t ∧ AtRest msix t := by
  have hb : AtRest msix (s.beginStep []) := h.with_output [] none []
  have hin : (s.beginStep []).acknowledge.irqEval.inputs = [] := by
    obtain ⟨-, e⟩ | ⟨-, -, e⟩ | ⟨-, -, e⟩ := (s.beginStep []).acknowledge_cases
    all_goals simp [e]
  have hrun : deliver s [encodeWrite s.cfg win .intStatus v] = deliver (s.beginStep []).acknowledge.irqEval [] :=
    deliver_cons (decode_encodeWrite_intStatus hc hw _ v) (exec_wrIntStatus hb.attached hb.consistent) hin
  exact ⟨_, hrun.trans (deliver_nil _), hb.acknowledge.with_output [] _ _⟩

/-- Settles O58: the reset brings the block to rest, from its own or from its corrected state, and the acknowledge
leaves it there. -/
theorem resetThenAcknowledgeIdles : Obligations.ResetThenAcknowledgeIdles := by
  intro s win v ack hc hwin ha hcheck hm
  have hw : win.holdsRegisters = true := by obtain rfl | rfl := hwin <;> rfl
  obtain ⟨u, hexec, hrest, hin⟩ := exec_wrDoorbellMur_atRest (win := win) (v := v)
    (s := s.beginStep [encodeWrite s.cfg win .intStatus ack]) ha hm hcheck
  have hcfg : u.cfg = s.cfg := (exec_cfg hexec).trans (s.beginStep_cfg _)
  have hreset : deliver s [encodeWrite s.cfg win .doorbell v, encodeWrite s.cfg win .intStatus ack] =
      deliver u [encodeWrite s.cfg win .intStatus ack] :=
    deliver_cons (decode_encodeWrite_doorbell hc hw (decodeDoorbellWrite_of_selectsMur (selectsMur_iff.mpr hm)))
      hexec hin
  obtain ⟨t, hrun, ht⟩ := hrest.deliver_acknowledge (hcfg ▸ hc) hw ack
  rw [hcfg] at hrun
  exact ⟨t, hreset.trans hrun, ht.attached, ht.ready, ht.idle, ht.status, ht.line⟩

end Sys2Proof.Machine
end

section
/-! SUPPORT. A run of doorbell writes that starts a handshake and fills the outbound buffer (41_doorbell_handshake.md
R118 to R120). -/

namespace Sys2Proof.Machine

variable {s t : State} {win : Window} {v : Word} {ws : List Word}

/-- The block is attached, passes the invariant check and accumulates a message. -/
structure Accumulating (s : State) : Prop where
  attached : s.life = .attached
  consistent : s.consistent = true
  inWrite : s.dbState = .write

/-- What accepting words in WRITE leads to: the words stand at the end of the outbound buffer, and the block still
accumulates until the last declared one is there, which leaves it where the handler's answer says. -/
structure WordsAccepted (s : State) (ws : List Word) (t : State) : Prop where
  outBuf_eq : t.outBuf = s.outBuf ++ ws
  writeIdx_eq : t.writeIdx = s.writeIdx + ws.length
  capacity_eq : t.capacity = s.capacity
  still_open : s.writeIdx + ws.length < s.capacity → t.dbState = .write
  answered : s.writeIdx + ws.length = s.capacity → 0 < ws.length →
    t.dbState = dbStateOfReply (s.cfg.handler.answer (s.outBuf ++ ws))

theorem Accumulating.startHandshake (ha : s.life = .attached) (hs : s.consistent = true) (v : Word) :
    Accumulating (s.startHandshake v) := by
  obtain ⟨-, hread, -⟩ := State.consistent_iff.mp hs
  rw [State.startHandshake_eq]
  exact { attached := ha, inWrite := rfl, consistent := State.consistent_iff.mpr ⟨Nat.zero_le _, hread, nofun⟩ }

/-- The state in which a word that is not the last has been accepted. -/
def State.appendWord (s : State) (v : Word) : State := { s with outBuf := s.outBuf ++ [v], writeIdx := s.writeIdx + 1 }

/-- A word below the capacity keeps the block accumulating. -/
theorem Accumulating.appendWord (h : Accumulating s) (hlt : s.writeIdx < s.capacity) (v : Word) :
    Accumulating (s.appendWord v) := by
  obtain ⟨-, hread, hstatus⟩ := State.consistent_iff.mp h.consistent
  exact { attached := h.attached, inWrite := h.inWrite, consistent := State.consistent_iff.mpr ⟨hlt, hread, hstatus⟩ }

/-- Accepting a word leaves the pending inputs. -/
theorem State.acceptWord_inputs (s : State) (v : Word) : (s.acceptWord v).inputs = s.inputs := by
  obtain ⟨ws, -, -, e⟩ | ⟨-, -, e⟩ | ⟨-, e⟩ := s.acceptWord_cases v
  · rw [e, State.enterRead_eq]
  · rw [e]
  · rw [e]

/-- With the last word the whole message is in the buffer and answered. -/
theorem WordsAccepted.of_last (h : s.writeIdx + 1 = s.capacity) (v : Word) : WordsAccepted s [v] (s.acceptWord v) := by
  obtain ⟨hout, hidx, hcap, hdb⟩ := (s.appendWord v).msgComplete_doorbell
  have e : s.acceptWord v = (s.appendWord v).msgComplete := State.acceptWord_of_last h
  rw [e]
  exact { outBuf_eq := hout, writeIdx_eq := hidx, capacity_eq := hcap, still_open := fun hlt => absurd h hlt.ne
          answered := fun _ _ => hdb }

/-- Words accepted after a word are accepted with it. -/
theorem WordsAccepted.cons (h : WordsAccepted (s.appendWord v) ws t) (hlt : s.writeIdx + 1 < s.capacity) :
    WordsAccepted s (v :: ws) t := by
  have hlen : s.writeIdx + (v :: ws).length = s.writeIdx + 1 + ws.length := by simp only [List.length_cons]; omega
  have hout : s.outBuf ++ v :: ws = s.outBuf ++ [v] ++ ws := by simp
  refine { outBuf_eq := ?_, writeIdx_eq := ?_, capacity_eq := h.capacity_eq, still_open := ?_, answered := ?_ }
  · rw [hout]; exact h.outBuf_eq
  · rw [hlen]; exact h.writeIdx_eq
  · rw [hlen]; exact h.still_open
  · rw [hlen, hout]
    intro hfull _
    exact h.answered hfull (by omega)

section Run

variable (hc : s.cfg.wf = true) (hw : win.holdsRegisters = true)
include hc hw

/-- A run that starts with a word below the capacity goes on from the state that has accepted it. -/
theorem Accumulating.deliver_word (h : Accumulating s) (hm : s.cfg.fn v ≠ s.cfg.fnMur) (hlt : s.writeIdx < s.capacity)
    (rest : List Input) :
    deliver s (encodeWrite s.cfg win .doorbell v :: rest) = deliver ((s.beginStep rest).acceptWord v) rest := by
  have hdec : decodeDoorbellWrite s.cfg s.decodePosition win v = .wrDoorbellData win v := by
    rw [decodePosition_of_consistent h.consistent]
    exact decodeDoorbellWrite_of_selectsData (selectsData_iff.mpr ⟨hm, h.inWrite, hlt⟩)
  exact deliver_cons (decode_encodeWrite_doorbell hc hw hdec)
    (exec_wrDoorbellData h.attached h.consistent h.inWrite hm hlt) (State.acceptWord_inputs _ v)

/-- Words up to the capacity are accepted, one after the other. -/
theorem Accumulating.deliver_words (h : Accumulating s) (hm : ∀ w ∈ ws, s.cfg.fn w ≠ s.cfg.fnMur)
    (hle : s.writeIdx + ws.length ≤ s.capacity) :
    ∃ t, deliver s (ws.map (encodeWrite s.cfg win .doorbell)) = .next t ∧ WordsAccepted s ws t := by
  induction ws generalizing s with
  | nil =>
    exact ⟨_, deliver_nil s,
      { outBuf_eq := (List.append_nil _).symm, writeIdx_eq := rfl, capacity_eq := rfl, still_open := fun _ => h.inWrite
        answered := nofun }⟩
  | cons w ws ih =>
    rw [List.length_cons] at hle
    set rest := ws.map (encodeWrite s.cfg win .doorbell)
    have hb : Accumulating (s.beginStep rest) := { h with }
    have hrun := h.deliver_word (v := w) hc hw (hm w List.mem_cons_self) (by omega) rest
    by_cases hlast : s.writeIdx + 1 = s.capacity
    · obtain rfl : ws = [] := List.eq_nil_of_length_eq_zero (by omega)
      exact ⟨_, hrun.trans (deliver_nil _), { WordsAccepted.of_last (s := s.beginStep []) hlast w with }⟩
    · have e : (s.beginStep rest).acceptWord w = (s.beginStep rest).appendWord w := State.acceptWord_of_not_last hlast
      have hle' : s.writeIdx + 1 + ws.length ≤ s.capacity := by omega
      have hnext : Accumulating ((s.beginStep rest).appendWord w) :=
        hb.appendWord (show s.writeIdx < s.capacity by omega) w
      obtain ⟨t, ht, hacc⟩ := ih (s := (s.beginStep rest).appendWord w) hc hnext
        (fun x hx => hm x (List.mem_cons_of_mem w hx)) hle'
      rw [e] at hrun
      exact ⟨t, hrun.trans ht, { hacc.cons (show s.writeIdx + 1 < s.capacity by omega) with }⟩

end Run

/-- In a well-formed configuration a handshake request is no message-unit reset (00_scope.md R5 item 2). -/
theorem fnMur_ne_fnHandshake {c : Cfg} (hc : c.wf = true) : c.fnMur ≠ c.fnHandshake := by
  simp only [Cfg.wf, Cfg.wfDoorbellWrite, Bool.and_eq_true, bne_iff_ne] at hc
  tauto

/-- A run that starts with a handshake request in NONE goes on accumulating into an empty buffer, with the declared count
as capacity. -/
theorem deliver_handshake (hc : s.cfg.wf = true) (hw : win.holdsRegisters = true) (ha : s.life = .attached)
    (hs : s.consistent = true) (hd : s.dbState = .none) (hf : s.cfg.fn v = s.cfg.fnHandshake) (rest : List Input) :
    ∃ u, deliver s (encodeWrite s.cfg win .doorbell v :: rest) = deliver u rest ∧ Accumulating u ∧ u.cfg = s.cfg ∧
      u.outBuf = [] ∧ u.writeIdx = 0 ∧ u.capacity = s.cfg.add v := by
  have hsel : s.cfg.selectsHandshake s.position v = true :=
    selectsHandshake_iff.mpr ⟨hf ▸ (fnMur_ne_fnHandshake hc).symm, hd, hf⟩
  have hdec : decodeDoorbellWrite s.cfg s.decodePosition win v = .wrDoorbellHandshake win v := by
    rw [decodePosition_of_consistent hs]
    exact decodeDoorbellWrite_of_selectsHandshake hsel
  have hexec : exec (.wrDoorbellHandshake win v) (s.beginStep rest) = .next ((s.beginStep rest).startHandshake v) :=
    exec_of_consistent (i := .wrDoorbellHandshake win v) ha nofun hs hsel
  have hin : ((s.beginStep rest).startHandshake v).inputs = rest := by
    rw [State.startHandshake_eq]
    rfl
  refine ⟨_, deliver_cons (decode_encodeWrite_doorbell hc hw hdec) hexec hin,
    .startHandshake (s := s.beginStep rest) ha hs v, ?_⟩
  rw [State.startHandshake_eq]
  exact ⟨rfl, rfl, rfl, rfl⟩

/-- Settles O56: the request starts the handshake, and its words are accepted up to the declared count. -/
theorem acceptedWordsFillBuffer : Obligations.AcceptedWordsFillBuffer := by
  intro s win v ws hc hwin ha hs hd hf hm hle
  have hw : win.holdsRegisters = true := by obtain rfl | rfl := hwin <;> rfl
  obtain ⟨u, hstart, hu, hcfg, hout, hidx, hcap⟩ :=
    deliver_handshake hc hw ha hs hd hf (ws.map (encodeWrite s.cfg win .doorbell))
  have hlen : u.writeIdx + ws.length = ws.length := by rw [hidx, Nat.zero_add]
  obtain ⟨t, hrun, ht⟩ := hu.deliver_words (ws := ws) (hcfg ▸ hc) hw (hcfg ▸ hm) (by rwa [hlen, hcap])
  obtain ⟨tout, tidx, tcap, topen, tanswered⟩ := ht
  rw [hcfg] at hrun tanswered
  rw [hout, List.nil_append] at tout tanswered
  rw [hlen, hcap] at topen tanswered
  exact ⟨t, hstart.trans hrun, tout, tidx.trans hlen, tcap.trans hcap, topen, tanswered⟩

end Sys2Proof.Machine
end

section
/-! SUPPORT. Plugging in another message handler commutes with every operation that does not ask it: with the gates, which
do not read the handler, and with every effect but that of the data write that fills the buffer
(41_doorbell_handshake.md R119 to R121). -/

namespace Sys2Proof.Machine

variable {s : State} {i : Instr} {k : State → Result} {h : Handler}

/-! ### What another handler leaves as it is -/

@[simp] theorem State.withHandler_life (s : State) (h : Handler) : (s.withHandler h).life = s.life := rfl
@[simp] theorem State.withHandler_dbState (s : State) (h : Handler) : (s.withHandler h).dbState = s.dbState := rfl

/-- No selection condition reads the handler. -/
theorem selected_withHandler (i : Instr) (s : State) :
    i.selected (s.withHandler h).cfg (s.withHandler h).position = i.selected s.cfg s.position := by
  cases i <;> rfl

/-! ### The gates -/

/-- From a state, the outcome with another handler plugged in is the outcome without, but for that handler. -/
def HandlerFree (h : Handler) (k : State → Result) (s : State) : Prop :=
  k (s.withHandler h) = mapNext (fun t => t.withHandler h) (k s)

theorem HandlerFree.whenAttached (hk : HandlerFree h k s) : HandlerFree h (fun s => whenAttached s k) s := by
  simp only [HandlerFree, Machine.whenAttached, State.withHandler_life]
  cases s.life with
  | attached => exact hk
  | halted => rfl
  | detached => rfl

theorem HandlerFree.whenSelected (hk : HandlerFree h k s) : HandlerFree h (fun s => whenSelected i s k) s := by
  simp only [HandlerFree, Machine.whenSelected, selected_withHandler]
  split
  · exact hk
  · rfl

theorem HandlerFree.withStateCheck (hk : HandlerFree h k s) (hcor : HandlerFree h k s.selfCorrect) :
    HandlerFree h (fun s => withStateCheck s k) s := by
  simp only [HandlerFree]
  obtain ⟨hs, e⟩ | ⟨hs, hb, e⟩ | ⟨hs, hb, e⟩ := withStateCheck_cases (s := s) (k := k)
  · rw [e, withStateCheck_of_consistent (s := s.withHandler h) hs]
    exact hk
  · rw [e, withStateCheck_of_debug (s := s.withHandler h) hs hb]
    rfl
  · rw [e, withStateCheck_of_corrected (s := s.withHandler h) hs hb]
    exact hcor

theorem HandlerFree.stateGate {o : Op} (hk : HandlerFree h k s) (hcor : HandlerFree h k s.selfCorrect) :
    HandlerFree h (fun s => stateGate o s k) s := by
  simp only [HandlerFree, Machine.stateGate]
  split
  · exact hk.withStateCheck hcor
  · exact hk

/-! ### The effects -/

/-- A choice that does not read the handler commutes with plugging one in, if its branches do. -/
theorem ite_withHandler {p : Prop} [Decidable p] {a b a' b' : State} (ha : p → a' = a.withHandler h)
    (hb : ¬ p → b' = b.withHandler h) : (if p then a' else b') = (if p then a else b).withHandler h := by
  split
  · exact ha ‹_›
  · exact hb ‹_›

theorem irqEval_withHandler (s : State) (h : Handler) : (s.withHandler h).irqEval = s.irqEval.withHandler h := by
  simp only [State.irqEval_eq]
  rfl

theorem softReset_withHandler (s : State) (h : Handler) : (s.withHandler h).softReset = s.softReset.withHandler h := by
  simp only [State.softReset_eq]
  rfl

theorem diagResetNow_withHandler (s : State) (h : Handler) :
    (s.withHandler h).diagResetNow = s.diagResetNow.withHandler h := by
  simp only [State.diagResetNow_eq]
  rfl

theorem hardReset_withHandler (s : State) (h : Handler) : (s.withHandler h).hardReset = s.hardReset.withHandler h := by
  simp only [State.hardReset_eq]
  rfl

theorem attachNow_withHandler (s : State) (h : Handler) : (s.withHandler h).attachNow = s.attachNow.withHandler h := by
  simp only [State.attachNow_eq]
  rfl

theorem detachNow_withHandler (s : State) (h : Handler) : (s.withHandler h).detachNow = s.detachNow.withHandler h := by
  have hline : (s.withHandler h).releaseLine = s.releaseLine.withHandler h :=
    ite_withHandler (fun _ => rfl) (fun _ => rfl)
  rw [State.detachNow, hline]
  rfl

theorem startHandshake_withHandler (s : State) (v : Word) (h : Handler) :
    (s.withHandler h).startHandshake v = (s.startHandshake v).withHandler h := by
  simp only [State.startHandshake_eq]
  rfl

theorem readDoorbell_withHandler (s : State) (h : Handler) :
    (s.withHandler h).readDoorbell = s.readDoorbell.withHandler h := by
  cases hd : s.dbState with
  | none =>
    rw [State.readDoorbell_of_none hd, State.readDoorbell_of_none (s := s.withHandler h) hd]
    rfl
  | write =>
    rw [State.readDoorbell_of_write hd, State.readDoorbell_of_write (s := s.withHandler h) hd]
    rfl
  | read =>
    by_cases hlt : s.readIdx < s.replyLen
    · rw [State.readDoorbell_of_lt hd hlt, State.readDoorbell_of_lt (s := s.withHandler h) hd hlt]
      rfl
    · rw [State.readDoorbell_of_not_lt hd hlt, State.readDoorbell_of_not_lt (s := s.withHandler h) hd hlt]
      rfl

theorem acknowledge_withHandler (s : State) (h : Handler) :
    (s.withHandler h).acknowledge = s.acknowledge.withHandler h := by
  simp only [State.acknowledge, State.withHandler_dbState]
  cases s.dbState with
  | none => rfl
  | write => rfl
  | read => exact ite_withHandler (fun _ => rfl) (fun _ => rfl)

theorem advanceKey_withHandler (s : State) (h : Handler) :
    (s.withHandler h).advanceKey = s.advanceKey.withHandler h :=
  ite_withHandler (fun _ => rfl) (fun _ => rfl)

theorem writeHostDiag_withHandler (s : State) (win : Window) (v : Word) (h : Handler) :
    effect (.wrHostDiag win v) (s.withHandler h) = (effect (.wrHostDiag win v) s).withHandler h :=
  ite_withHandler (fun _ => ite_withHandler (fun _ => diagResetNow_withHandler s h) (fun _ => rfl)) (fun _ => rfl)

/-- A word that is not the last is accepted without asking the handler. -/
theorem acceptWord_withHandler (hlast : s.writeIdx + 1 ≠ s.capacity) (v : Word) (h : Handler) :
    (s.withHandler h).acceptWord v = (s.acceptWord v).withHandler h := by
  rw [State.acceptWord_of_not_last hlast, State.acceptWord_of_not_last (s := s.withHandler h) hlast]
  rfl

/-- Every effect but that of the data write that fills the buffer does the same with another handler plugged in. -/
theorem effect_withHandler (hask : ¬ (i.op = .wrDoorbellData ∧ s.writeIdx + 1 = s.capacity)) (h : Handler) :
    effect i (s.withHandler h) = (effect i s).withHandler h := by
  cases i with
  | rdDoorbell => exact readDoorbell_withHandler s h
  | wrDoorbellMur => exact softReset_withHandler s h
  | wrDoorbellData _ v => exact acceptWord_withHandler (fun hlast => hask ⟨rfl, hlast⟩) v h
  | wrDoorbellHandshake _ v => exact startHandshake_withHandler s v h
  | wrWrSeqMatch => exact advanceKey_withHandler s h
  | wrHostDiag win v => exact writeHostDiag_withHandler s win v h
  | wrIntStatus =>
    simp only [effect, acknowledge_withHandler]
    exact irqEval_withHandler _ h
  | wrIntMask _ v => exact irqEval_withHandler { s with intMask := v &&& s.cfg.himWritable } h
  | evAttach => exact attachNow_withHandler s h
  | evHardReset => exact hardReset_withHandler s h
  | evDetach => exact detachNow_withHandler s h
  | wrDoorbellOverrun | wrDoorbellOtherFn | wrDoorbellInRead | rdWrSeq | wrWrSeqFlush | wrWrSeqMismatch | rdHostDiag
  | rdIntStatus | rdIntMask | rdHcbSize | wrHcbSize | rdDiagWin | wrDiagWin | rdUnimpl | wrUnimpl | rdBadWidth
  | wrBadWidth => rfl

/-- The selected effect, behind its last gate, does not ask the handler. -/
theorem handlerFree_selected_effect (hask : ¬ (i.op = .wrDoorbellData ∧ s.writeIdx + 1 = s.capacity)) (h : Handler) :
    HandlerFree h (fun s => whenSelected i s fun s => .next (effect i s)) s :=
  HandlerFree.whenSelected (congrArg Host.Outcome.next (effect_withHandler hask h))

/-- An attach does not ask the handler: it computes the identity and the delivery mechanism alone
(70_reset_and_hazards.md R227). -/
theorem handlerFree_attach (s : State) (h : Handler) : HandlerFree h (exec .evAttach) s := by
  simp only [HandlerFree, exec, execEvAttach, State.withHandler_life, attachNow_withHandler]
  cases s.life <;> rfl

/-- Settles O55: the gates do not read the handler, and behind them stands the effect on the state or on the corrected
state, whose capacity of 0 no word fills. -/
theorem handlerAskedOnlyOnCompletion : Obligations.HandlerAskedOnlyOnCompletion := by
  intro s i h hask
  by_cases hi : i = .evAttach
  · rw [hi]
    exact handlerFree_attach s h
  · have hcor : ¬ (i.op = .wrDoorbellData ∧ s.selfCorrect.writeIdx + 1 = s.selfCorrect.capacity) := by simp
    rw [exec_gates hi, exec_gates hi]
    exact ((handlerFree_selected_effect hask h).stateGate (handlerFree_selected_effect hcor h)).whenAttached

end Sys2Proof.Machine
end

section
/-! SUPPORT. The interrupt signal and its delivery: which bit asserts it, what one evaluation does, and what the registers
of the arbiter do (42_interrupt_arbiter.md R140 to R146). -/

namespace Sys2Proof

/-- A word is not zero exactly where some bit of it is set: words are equal when their bits are. -/
theorem ne_zero_iff_exists_bit (w : Word) : w ≠ 0 ↔ ∃ k, k < 32 ∧ w.getLsbD k = true := by
  simp [BitVec.eq_of_getLsbD_eq_iff]

/-- Settles O24: a word is not zero where some bit of it is set, and the bits of the masked status are the status bits
that are neither masked nor reserved. -/
theorem signalIsUnmaskedStatusBit : Obligations.SignalIsUnmaskedStatusBit := by
  intro c status mask
  have hbit (k : Nat) (hk : k < 32) : (status &&& ~~~(mask ||| c.hisReservedDb)).getLsbD k = true ↔
      status.getLsbD k = true ∧ mask.getLsbD k = false ∧ c.hisReservedDb.getLsbD k = false := by
    simp [hk]
  calc c.asserted status mask = true
    _ ↔ status &&& ~~~(mask ||| c.hisReservedDb) ≠ 0 := bne_iff_ne
    _ ↔ ∃ k, k < 32 ∧ (status &&& ~~~(mask ||| c.hisReservedDb)).getLsbD k = true := ne_zero_iff_exists_bit _
    _ ↔ ∃ k, k < 32 ∧ status.getLsbD k = true ∧ mask.getLsbD k = false ∧ c.hisReservedDb.getLsbD k = false :=
      exists_congr fun k => and_congr_right (hbit k)

end Sys2Proof

namespace Sys2Proof.Machine

variable {s : State}

/-! ### One evaluation -/

/-- In MSI-X mode an asserted signal sends vector 0. -/
theorem State.irqEval_of_msix_asserted (hm : s.msixInUse = true) (ha : s.asserted = true) :
    s.irqEval = s.emit (.msixNotify 0) :=
  (if_pos hm).trans (if_pos ha)

/-- In MSI-X mode a clear signal sends nothing. -/
theorem State.irqEval_of_msix_clear (hm : s.msixInUse = true) (ha : s.asserted = false) : s.irqEval = s :=
  (if_pos hm).trans (if_neg (Bool.eq_false_iff.mp ha))

/-- In legacy mode the line is driven to the signal. -/
theorem State.irqEval_of_legacy (hm : s.msixInUse = false) :
    s.irqEval = { s with irqLine := s.asserted }.emit (.irqLine s.asserted) :=
  if_neg (Bool.eq_false_iff.mp hm)

/-- Settles O25: the three branches of the evaluation. -/
theorem irqEvalDeliversSignal : Obligations.IrqEvalDeliversSignal :=
  fun _ => ⟨State.irqEval_of_msix_asserted, State.irqEval_of_msix_clear, State.irqEval_of_legacy⟩

/-! ### The registers -/

/-- Settles O26: while attached each read completes with its effect. -/
theorem registerReadsAnswerStorage : Obligations.RegisterReadsAnswerStorage :=
  fun _ _ ha => ⟨execRdIntStatus_next.mpr ⟨ha, rfl⟩, execRdIntMask_next.mpr ⟨ha, rfl⟩, execRdHcbSize_next.mpr ⟨ha, rfl⟩⟩

/-- Settles O27: by the three cases of an acknowledge, each of which excludes the premises of the others. -/
theorem statusWriteAcknowledges : Obligations.StatusWriteAcknowledges := by
  intro s win v ha hs
  rw [exec_wrIntStatus ha hs]
  obtain ⟨hd, e⟩ | ⟨hd, hdrained, e⟩ | ⟨hd, hleft, e⟩ := s.acknowledge_cases
  · rw [e]
    exact ⟨fun _ => rfl, fun h => absurd h hd, fun h => absurd h hd⟩
  · rw [e]
    exact ⟨fun h => absurd hd h, fun _ _ => rfl, fun _ h => absurd hdrained h⟩
  · rw [e]
    exact ⟨fun h => absurd hd h, fun _ h => absurd h hleft, fun _ _ => rfl⟩

/-- Settles O28: while attached the write completes with its effect. -/
theorem maskWriteStoresMaskableBits : Obligations.MaskWriteStoresMaskableBits :=
  fun _ _ _ ha => execWrIntMask_next.mpr ⟨ha, rfl⟩

end Sys2Proof.Machine
end

section
/-! SUPPORT. The operations that are no call site of `IrqEval()` keep the line and emit nothing of the interrupt's delivery
(42_interrupt_arbiter.md R142). -/

namespace Sys2Proof.Machine

variable {s t u : State} {i : Instr}

/-- The change from `s` to `t` keeps the line and appends no event of the interrupt's delivery. -/
structure QuietChange (s t : State) : Prop where
  line_eq : t.irqLine = s.irqLine
  events_quiet : ∃ es, t.events = s.events ++ es ∧ ∀ e ∈ es, e.isInterrupt = false

theorem QuietChange.trans (h₁ : QuietChange s t) (h₂ : QuietChange t u) : QuietChange s u := by
  obtain ⟨hl₁, es₁, he₁, hq₁⟩ := h₁
  obtain ⟨hl₂, es₂, he₂, hq₂⟩ := h₂
  refine ⟨hl₂.trans hl₁, es₁ ++ es₂, by rw [he₂, he₁, List.append_assoc], fun e he => ?_⟩
  exact (List.mem_append.mp he).elim (hq₁ e) (hq₂ e)

/-- A change of other fields than the line and the events. -/
theorem QuietChange.of_eq (hl : t.irqLine = s.irqLine) (he : t.events = s.events) : QuietChange s t :=
  ⟨hl, [], by rw [he, List.append_nil], nofun⟩

/-- A change that emits one event, of another kind. -/
theorem QuietChange.of_event {e : Event} (hl : t.irqLine = s.irqLine) (he : t.events = s.events ++ [e])
    (hq : e.isInterrupt = false) : QuietChange s t :=
  ⟨hl, [e], he, by simp [hq]⟩

/-- A change that logs one violation and touches other fields than the line. -/
theorem QuietChange.of_violation {v : Violation} (hl : t.irqLine = s.irqLine)
    (he : t.events = s.events ++ [.violation v]) : QuietChange s t :=
  .of_event hl he rfl

theorem readDoorbell_quiet (s : State) : QuietChange s s.readDoorbell := by
  obtain e | ⟨-, -, e⟩ := s.readDoorbell_cases
  all_goals
    rw [e]
    exact .of_eq rfl rfl

theorem advanceKey_quiet (s : State) : QuietChange s s.advanceKey := by
  obtain ⟨-, e⟩ | ⟨-, e⟩ := s.advanceKey_cases
  all_goals
    rw [e]
    exact .of_eq rfl rfl

/-- The operations that evaluate the interrupt (42_interrupt_arbiter.md R142), and the detach, which releases the line
(70_reset_and_hazards.md R228). -/
def drivesInterrupt : List Op :=
  [.wrDoorbellMur, .wrDoorbellHandshake, .wrDoorbellData, .wrIntStatus, .wrIntMask, .wrHostDiag, .evAttach, .evHardReset,
    .evDetach]

/-- The effect of any other operation leaves the interrupt alone. -/
theorem effect_quiet (h : i.op ∉ drivesInterrupt) (s : State) : QuietChange s (effect i s) := by
  cases i with
  | rdDoorbell => exact readDoorbell_quiet s
  | wrWrSeqMatch => exact advanceKey_quiet s
  | wrWrSeqFlush | rdHostDiag | rdIntStatus | rdIntMask | rdHcbSize | wrHcbSize => exact .of_eq rfl rfl
  | wrDoorbellOverrun | wrDoorbellOtherFn | wrDoorbellInRead | rdWrSeq | wrWrSeqMismatch | rdDiagWin | wrDiagWin | rdUnimpl
  | wrUnimpl | rdBadWidth | wrBadWidth => exact .of_violation rfl rfl
  | wrDoorbellMur | wrDoorbellHandshake | wrDoorbellData | wrIntStatus | wrIntMask | wrHostDiag | evAttach | evHardReset
  | evDetach => exact absurd (by simp [drivesInterrupt, Instr.op]) h

/-- So does the operation itself, also where the invariant check halts or corrects the block before it. -/
theorem exec_quiet (hi : i.op ∉ drivesInterrupt) (h : exec i s = .next t) : QuietChange s t := by
  have hcorrect : QuietChange s s.selfCorrect := .of_violation rfl rfl
  obtain ⟨-, ⟨rfl, -⟩ | ⟨rfl, -⟩ | ⟨rfl, -⟩⟩ := exec_completes h
  · exact effect_quiet hi s
  · exact .of_event rfl rfl rfl
  · exact hcorrect.trans (effect_quiet hi s.selfCorrect)

/-- Settles O29: an operation that is none of them is quiet. -/
theorem onlyCallSitesDriveInterrupt : Obligations.OnlyCallSitesDriveInterrupt := by
  intro s t i h hi
  obtain ⟨hline, hevents⟩ := exec_quiet hi h
  exact ⟨hline, hevents⟩

end Sys2Proof.Machine
end

section
/-! SUPPORT. When a write-sequence write is selected as each of the three, and what each of them and a read of the
register does (43_diagnostic_unlock.md R156 to R159). -/

namespace Sys2Proof

variable {c : Cfg} {p : Position} {v : Word}

/-- The expected key is the one at the position of the progress in the key table; beyond the table there is none
(43_diagnostic_unlock.md R157, R158). -/
theorem Cfg.expectedKey_eq_getElem? (c : Cfg) (p : Nat) : c.expectedKey p = c.keys.toList[p]? := by
  match p with
  | 0 | 1 | 2 | 3 | 4 | 5 => rfl
  | _ + 6 => rfl

theorem selectsFlush_iff : c.selectsFlush v = true ↔ c.key v = c.kf := by simp [Cfg.selectsFlush]

theorem selectsMatch_iff :
    c.selectsMatch p v = true ↔ c.key v ≠ c.kf ∧ c.keys.toList[p.progress]? = some (c.key v) := by
  simp [Cfg.selectsMatch, Cfg.selectsFlush, Cfg.isExpectedKey, Cfg.expectedKey_eq_getElem?]

theorem selectsMismatch_iff :
    c.selectsMismatch p v = true ↔ c.key v ≠ c.kf ∧ c.keys.toList[p.progress]? ≠ some (c.key v) := by
  simp [Cfg.selectsMismatch, Cfg.selectsFlush, Cfg.isExpectedKey, Cfg.expectedKey_eq_getElem?]

end Sys2Proof

namespace Sys2Proof.Machine

variable {s : State} {win : Window} {v : Word}

/-- The sixth key completes the progress and sets write-enable. -/
theorem State.advanceKey_of_sixth (hp : s.progress = 5) :
    s.advanceKey = { s with progress := 6, diag := s.diag ||| s.cfg.diagWe } := by
  obtain ⟨-, e⟩ | ⟨hne, -⟩ := s.advanceKey_cases
  · exact e
  · exact absurd hp hne

/-- An earlier key advances the progress alone. -/
theorem State.advanceKey_of_earlier (hp : s.progress < 5) : s.advanceKey = { s with progress := s.progress + 1 } := by
  obtain ⟨h5, -⟩ | ⟨-, e⟩ := s.advanceKey_cases
  · exact absurd h5 hp.ne
  · exact e

/-- The expected key, while attached, advances the key counter. -/
theorem exec_wrWrSeqMatch (ha : s.life = .attached) (hf : s.cfg.key v ≠ s.cfg.kf)
    (hk : s.cfg.keys.toList[s.progress]? = some (s.cfg.key v)) :
    exec (.wrWrSeqMatch win v) s = .next s.advanceKey :=
  execWrWrSeqMatch_next.mpr ⟨ha, selectsMatch_iff.mpr ⟨hf, hk⟩, rfl⟩

/-- Settles O30: a selected flush completes with its effect. -/
theorem flushClearsProgress : Obligations.FlushClearsProgress :=
  fun _ _ _ ha hf => execWrWrSeqFlush_next.mpr ⟨ha, selectsFlush_iff.mpr hf, rfl⟩

/-- Settles O31: a selected match advances the key counter, by whether it is the sixth key. -/
theorem matchingKeyAdvances : Obligations.MatchingKeyAdvances := by
  intro s win v ha hf hk
  rw [exec_wrWrSeqMatch ha hf hk]
  refine ⟨fun hp => ?earlier, fun hp => ?sixth⟩
  case earlier => rw [State.advanceKey_of_earlier hp]
  case sixth => rw [State.advanceKey_of_sixth hp]

/-- Settles O32: a selected mismatch completes with its effect. -/
theorem mismatchingKeyResets : Obligations.MismatchingKeyResets :=
  fun _ _ _ ha hf hk => execWrWrSeqMismatch_next.mpr ⟨ha, selectsMismatch_iff.mpr ⟨hf, hk⟩, rfl⟩

/-- Settles O33: while attached the read completes with its effect. -/
theorem wrSeqReadAnswersZero : Obligations.WrSeqReadAnswersZero :=
  fun _ _ ha => execRdWrSeq_next.mpr ⟨ha, rfl⟩

end Sys2Proof.Machine
end

section
/-! SUPPORT. The Host Diagnostic register: its value between steps, and its gate (43_diagnostic_unlock.md R160 to
R163). -/

namespace Sys2Proof

variable {c : Cfg} {w m : Word}

/-- A one-bit mask is a power of two. -/
theorem isSingleBit_iff : isSingleBit m = true ↔ ∃ k, k < 32 ∧ m = BitVec.twoPow 32 k := by
  simp [isSingleBit, BitVec.twoPow]

/-- A word with no bit outside a mask is its part under the mask. -/
theorem and_eq_self_of_andNot (hw : w &&& ~~~m = 0) : w &&& m = w := by
  calc w &&& m = w &&& m ||| w &&& ~~~m := by rw [hw]; exact BitVec.or_zero.symm
    _ = w &&& (m ||| ~~~m) := BitVec.and_or_distrib_left.symm
    _ = w := by rw [BitVec.or_not_self, BitVec.and_allOnes]

/-- A word with no bit outside a one-bit mask is empty or the mask. -/
theorem eq_zero_or_eq_of_isSingleBit (hm : isSingleBit m = true) (hw : w &&& ~~~m = 0) : w = 0 ∨ w = m := by
  obtain ⟨k, -, rfl⟩ := isSingleBit_iff.mp hm
  have hself := and_eq_self_of_andNot hw
  rw [BitVec.and_twoPow] at hself
  cases hbit : w.getLsbD k with
  | false => exact .inl (by simpa [hbit] using hself.symm)
  | true => exact .inr (by simpa [hbit] using hself.symm)

/-- The write-enable mask is one bit (00_scope.md R5 item 5). -/
theorem Cfg.diagWe_isSingleBit (hc : c.wf = true) : isSingleBit c.diagWe = true := by
  simp only [Cfg.wf, Cfg.wfDiag, Bool.and_eq_true] at hc
  tauto

end Sys2Proof

namespace Sys2Proof.Machine

variable {s : State} {win : Window} {v : Word}

/-- Settles O34: while attached the read completes with its effect, and the invariants leave the register no bit outside
the one-bit mask. -/
theorem hostDiagReadAnswersDiag : Obligations.HostDiagReadAnswersDiag := by
  intro s win ha
  refine ⟨execRdHostDiag_next.mpr ⟨ha, rfl⟩, fun hc hinv => ?_⟩
  exact eq_zero_or_eq_of_isSingleBit (Cfg.diagWe_isSingleBit hc) hinv.diag_only

/-- The gate is open with the write-enable bit in the register (60_exceptions.md R206). -/
theorem State.unlocked_iff : s.unlocked = true ↔ s.diag &&& s.cfg.diagWe ≠ 0 := bne_iff_ne

/-- A host diagnostic write changes nothing while locked. -/
theorem effect_wrHostDiag_of_locked (h : s.diag &&& s.cfg.diagWe = 0) : effect (.wrHostDiag win v) s = s :=
  if_neg (mt State.unlocked_iff.mp (not_not_intro h))

/-- Nor does one without the reset-adapter bit. -/
theorem effect_wrHostDiag_of_no_reset (h : v &&& s.cfg.diagReset = 0) : effect (.wrHostDiag win v) s = s := by
  have hb : ¬ hasBit v s.cfg.diagReset = true := by simp [hasBit, h]
  simp only [effect, if_neg hb, ite_self]

/-- One with it, while unlocked, resets the block. -/
theorem effect_wrHostDiag_of_reset (hu : s.diag &&& s.cfg.diagWe ≠ 0) (h : v &&& s.cfg.diagReset ≠ 0) :
    effect (.wrHostDiag win v) s = s.diagResetNow :=
  (if_pos (State.unlocked_iff.mpr hu)).trans (if_pos (bne_iff_ne.mpr h))

/-- Settles O35: while attached the write completes with its effect, by the two conditions of the gate. -/
theorem hostDiagWriteGated : Obligations.HostDiagWriteGated := by
  intro s win v ha
  rw [execWrHostDiag_next.mpr ⟨ha, rfl⟩]
  refine ⟨fun hl => ?locked, fun _ hv => ?noReset, fun hu hv => ?reset⟩
  case locked => rw [effect_wrHostDiag_of_locked hl]
  case noReset => rw [effect_wrHostDiag_of_no_reset hv]
  case reset => rw [effect_wrHostDiag_of_reset hu hv, State.diagResetNow_eq]; rfl

/-- Settles O36: a write that changes the block found the gate open, which under the invariants is progress 6, and the
reset-adapter bit written. -/
theorem diagResetNeedsSixKeys : Obligations.DiagResetNeedsSixKeys := by
  intro s t win v hinv h hne
  obtain ⟨-, rfl⟩ := execWrHostDiag_next.mp h
  have hopen : s.unlocked = true := State.unlocked_iff.mpr fun hl => hne (effect_wrHostDiag_of_locked hl)
  exact ⟨hinv.unlocked_iff.mp hopen, fun hv => hne (effect_wrHostDiag_of_no_reset hv)⟩

end Sys2Proof.Machine
end

section
/-! SUPPORT. What every completing operation does to the key progress (43_diagnostic_unlock.md R155 to R163). -/

namespace Sys2Proof.Machine

variable {s t : State} {i : Instr} {win : Window} {v : Word}

/-- The key that an operation writes: that of each of the three write-sequence writes (43_diagnostic_unlock.md
section 2). -/
def writtenKey (c : Cfg) (i : Instr) : Option Word :=
  match i with
  | .wrWrSeqFlush _ v => some (c.key v)
  | .wrWrSeqMatch _ v => some (c.key v)
  | .wrWrSeqMismatch _ v => some (c.key v)
  | _ => none

/-- The operations that clear the progress, a host diagnostic write only through the open gate. -/
def clearsProgress (i : Instr) (s : State) : Prop :=
  i.op = .wrWrSeqFlush ∨ i.op = .wrWrSeqMismatch ∨ i.op = .evHardReset ∨ i.op = .evAttach ∨
    (i.op = .wrHostDiag ∧ s.unlocked = true)

/-- All that an operation can do to the progress: keep it while no key is written, advance it by the expected key, or
clear it. -/
inductive ProgressMoves (s t : State) : Instr → Prop
  | kept {i : Instr} (hk : writtenKey s.cfg i = none) (hp : t.progress = s.progress) : ProgressMoves s t i
  | advanced {win : Window} {v : Word} (hk : s.cfg.keys.toList[s.progress]? = some (s.cfg.key v))
      (hp : t.progress = s.progress + 1) : ProgressMoves s t (.wrWrSeqMatch win v)
  | cleared {i : Instr} (hi : clearsProgress i s) (hp : t.progress = 0) : ProgressMoves s t i

/-- The key counter advances by one, whichever key it is. -/
theorem State.advanceKey_progress (s : State) : s.advanceKey.progress = s.progress + 1 := by
  obtain ⟨h5, e⟩ | ⟨-, e⟩ := s.advanceKey_cases
  · rw [e, h5]
  · rw [e]

/-- A host diagnostic write clears the progress where the gate is open, and else keeps it. -/
theorem effect_wrHostDiag_progressMoves (s : State) (win : Window) (v : Word) :
    ProgressMoves s (effect (.wrHostDiag win v) s) (.wrHostDiag win v) := by
  cases hu : s.unlocked with
  | false =>
    have hl : s.diag &&& s.cfg.diagWe = 0 := by simpa [State.unlocked, hasBit] using hu
    rw [effect_wrHostDiag_of_locked hl]
    exact .kept rfl rfl
  | true =>
    obtain e | e := effect_wrHostDiag_cases s win v
    · rw [e]
      exact .kept rfl rfl
    · rw [e, State.diagResetNow_eq]
      exact .cleared (.inr (.inr (.inr (.inr ⟨rfl, hu⟩)))) rfl

/-- Accepting a word keeps the progress. -/
theorem State.acceptWord_progress (s : State) (v : Word) : (s.acceptWord v).progress = s.progress := by
  obtain ⟨ws, -, -, e⟩ | ⟨-, -, e⟩ | ⟨-, e⟩ := s.acceptWord_cases v
  · rw [e, State.enterRead_eq]
  · rw [e]
  · rw [e]

/-- An acknowledge keeps the progress. -/
theorem State.acknowledge_irqEval_progress (s : State) : s.acknowledge.irqEval.progress = s.progress := by
  obtain ⟨-, e⟩ | ⟨-, -, e⟩ | ⟨-, -, e⟩ := s.acknowledge_cases
  all_goals simp [e]

/-- The operations that can change the progress: the write-sequence writes, the resets, and the two that begin and end
the block's life (43_diagnostic_unlock.md R163). -/
def changesProgress : List Op :=
  [.wrWrSeqFlush, .wrWrSeqMatch, .wrWrSeqMismatch, .wrHostDiag, .evAttach, .evHardReset, .evDetach]

/-- No other operation does. -/
theorem effect_progress (h : i.op ∉ changesProgress) (s : State) : (effect i s).progress = s.progress := by
  cases i with
  | rdDoorbell | rdWrSeq | rdHostDiag | rdIntStatus | rdIntMask | rdHcbSize | rdDiagWin | rdUnimpl | rdBadWidth =>
    rw [(effect_of_isRead rfl s).1]
  | wrDoorbellMur => rw [effect, State.softReset_eq]
  | wrDoorbellHandshake => rw [effect, State.startHandshake_eq]
  | wrDoorbellData _ v => exact s.acceptWord_progress v
  | wrIntStatus => exact s.acknowledge_irqEval_progress
  | wrIntMask => exact State.irqEval_progress _
  | wrDoorbellOverrun | wrDoorbellOtherFn | wrDoorbellInRead | wrHcbSize | wrDiagWin | wrUnimpl | wrBadWidth => rfl
  | wrWrSeqFlush | wrWrSeqMatch | wrWrSeqMismatch | wrHostDiag | evAttach | evHardReset | evDetach =>
    exact absurd (by simp [changesProgress, Instr.op]) h

/-- The effect of every selected operation but a detach, which leaves the progress undefined. -/
theorem effect_progressMoves (hs : i.selected s.cfg s.position = true) (hd : i ≠ .evDetach) :
    ProgressMoves s (effect i s) i := by
  cases i with
  | wrWrSeqFlush => exact .cleared (.inl rfl) rfl
  | wrWrSeqMismatch => exact .cleared (.inr (.inl rfl)) rfl
  | wrWrSeqMatch _ v => exact .advanced (selectsMatch_iff.mp hs).2 s.advanceKey_progress
  | wrHostDiag win v => exact effect_wrHostDiag_progressMoves s win v
  | evHardReset => exact .cleared (.inr (.inr (.inl rfl))) (congrArg State.progress s.hardReset_eq)
  | evAttach => exact .cleared (.inr (.inr (.inr (.inl rfl)))) (congrArg State.progress s.attachNow_eq)
  | evDetach => exact absurd rfl hd
  | _ => exact .kept rfl (effect_progress (by simp [changesProgress, Instr.op]) s)

/-- No operation that begins with the invariant check writes a key. -/
theorem writtenKey_of_checksState (hk : i.op.checksState = true) (c : Cfg) : writtenKey c i = none := by
  cases i with
  | wrWrSeqFlush | wrWrSeqMatch | wrWrSeqMismatch => cases hk
  | _ => rfl

/-- The invariant check touches neither the configuration nor the progress nor the gate. -/
theorem ProgressMoves.of_selfCorrect (h : ProgressMoves s.selfCorrect t i) : ProgressMoves s t i := by
  cases h with
  | kept hk hp => exact .kept hk hp
  | advanced hk hp => exact .advanced hk hp
  | cleared hi hp => exact .cleared hi hp

/-- Every operation that completes and does not leave the block detached moves the progress so. -/
theorem exec_progressMoves (h : exec i s = .next t) (hl : t.life ≠ .detached) : ProgressMoves s t i := by
  have hd : i ≠ .evDetach := by
    rintro rfl
    obtain ⟨-, rfl⟩ := execEvDetach_next.mp h
    exact hl s.detachNow_keeps.1
  obtain ⟨-, ⟨rfl, hs, -⟩ | ⟨rfl, hk, -⟩ | ⟨rfl, hs, -⟩⟩ := exec_completes h
  · exact effect_progressMoves hs hd
  · exact .kept (writtenKey_of_checksState hk _) rfl
  · exact (effect_progressMoves (s := s.selfCorrect) hs hd).of_selfCorrect

/-- Settles O37: of the three moves one keeps the progress, one is a match, which finds its key in the table of six, and
one is by an operation that clears it. -/
theorem progressMovesOnlyByKeysAndResets : Obligations.ProgressMovesOnlyByKeysAndResets := by
  intro s t i h hl hne
  have hlife : t.life ≠ .detached := by simp [hl]
  cases exec_progressMoves h hlife with
  | kept _ hp => exact absurd hp hne
  | advanced hk hp => exact .inl ⟨rfl, hp, (List.getElem?_eq_some_iff.mp hk).1⟩
  | cleared hi hp => exact .inr ⟨hp, hi⟩

end Sys2Proof.Machine
end

section
/-! SUPPORT. A run of write-sequence writes that carries the keys in order (43_diagnostic_unlock.md R155, R157). -/

namespace Sys2Proof

variable {c : Cfg} {k : Word}

/-- No key of a well-formed table is the flush key (00_scope.md R5 item 6). -/
theorem Cfg.ne_kf_of_mem_keys (hc : c.wf = true) (hk : k ∈ c.keys.toList) : k ≠ c.kf := by
  have hkf : c.kf ∉ c.keys.toList := by
    simp only [Cfg.wf, Cfg.wfKeys, Bool.and_eq_true, Bool.not_eq_true', List.contains_eq_mem, decide_eq_false_iff_not]
      at hc
    tauto
  exact ne_of_mem_of_not_mem hk hkf

/-- What is left of the key table at a progress is the expected key and what is left at the next. -/
theorem KeyTable.drop_eq_cons {t : KeyTable} {p : Nat} {ks : List Word} (h : t.toList.drop p = k :: ks) :
    t.toList[p]? = some k ∧ t.toList.drop (p + 1) = ks ∧ p + ks.length = 5 := by
  have hlen : 6 - p = ks.length + 1 := by simpa [KeyTable.toList] using congrArg List.length h
  exact ⟨by rw [← List.head?_drop, h, List.head?_cons], by rw [← List.tail_drop, h, List.tail_cons], by omega⟩

end Sys2Proof

namespace Sys2Proof.Machine

variable {s : State} {win : Window} {v : Word} {vs : List Word}

/-- The decoder sees the progress of the state itself, which the invariant check does not correct. -/
theorem State.decodePosition_progress (s : State) : s.decodePosition.progress = s.progress := by
  unfold State.decodePosition
  split
  · rfl
  · split <;> rfl

/-- Advancing the key counter leaves the pending inputs. -/
theorem State.advanceKey_inputs (s : State) : s.advanceKey.inputs = s.inputs := by
  obtain ⟨-, e⟩ | ⟨-, e⟩ := s.advanceKey_cases
  all_goals rw [e]

/-- A run that starts with the expected key goes on from the advanced key counter. -/
theorem deliver_expectedKey (hc : s.cfg.wf = true) (hw : win.holdsRegisters = true) (ha : s.life = .attached)
    (hk : s.cfg.keys.toList[s.progress]? = some (s.cfg.key v)) (rest : List Input) :
    deliver s (encodeWrite s.cfg win .wrSeq v :: rest) = deliver (s.beginStep rest).advanceKey rest := by
  have hf : s.cfg.key v ≠ s.cfg.kf := Cfg.ne_kf_of_mem_keys hc (List.mem_of_getElem? hk)
  have hdec : decodeWrSeqWrite s.cfg s.decodePosition win v = .wrWrSeqMatch win v :=
    decodeWrSeqWrite_of_selectsMatch (selectsMatch_iff.mpr ⟨hf, by rwa [s.decodePosition_progress]⟩)
  exact deliver_cons (decode_encodeWrite_wrSeq hc hw hdec) (exec_wrWrSeqMatch (s := s.beginStep rest) ha hf hk)
    (State.advanceKey_inputs _)

/-- All that the completed key sequence changes: the progress, the write-enable bit and the output. -/
def State.afterKeys (s : State) : State :=
  { s with inputs := [], rdata := none, events := [], progress := 6, diag := s.diag ||| s.cfg.diagWe }

/-- The keys that are left at a progress complete the sequence, one after the other. -/
theorem deliver_remainingKeys (hc : s.cfg.wf = true) (hw : win.holdsRegisters = true) (ha : s.life = .attached)
    (hk : s.cfg.keys.toList.drop s.progress = s.cfg.key v :: vs.map s.cfg.key) :
    deliver s ((v :: vs).map (encodeWrite s.cfg win .wrSeq)) = .next s.afterKeys := by
  induction vs generalizing s v with
  | nil =>
    obtain ⟨hhead, -, hlen⟩ := KeyTable.drop_eq_cons hk
    have hrun := deliver_expectedKey hc hw ha hhead []
    have h5 : (s.beginStep []).progress = 5 := hlen
    rw [State.advanceKey_of_sixth h5] at hrun
    exact hrun
  | cons w ws ih =>
    obtain ⟨hhead, htail, hlen⟩ := KeyTable.drop_eq_cons hk
    set rest := (w :: ws).map (encodeWrite s.cfg win .wrSeq)
    have hrun := deliver_expectedKey hc hw ha hhead rest
    have hlt : (s.beginStep rest).progress < 5 := by
      rw [List.map_cons, List.length_cons] at hlen
      show s.progress < 5
      omega
    rw [State.advanceKey_of_earlier hlt] at hrun
    exact hrun.trans (ih (s := { s.beginStep rest with progress := s.progress + 1 }) hc ha htail)

/-- Settles O38: at progress 0 all six keys are left. -/
theorem sixKeysInOrderUnlock : Obligations.SixKeysInOrderUnlock := by
  intro s win v1 v2 v3 v4 v5 v6 hc hwin ha hp hkeys
  have hw : win.holdsRegisters = true := by obtain rfl | rfl := hwin <;> rfl
  exact deliver_remainingKeys hc hw ha (by rw [hp]; exact hkeys.symm)

end Sys2Proof.Machine
end

section
/-! SUPPORT. Whatever inputs are delivered, the keys written so far end with the keys that the progress counts, so that
progress 6 is the six keys in order (43_diagnostic_unlock.md R155, R163). -/

namespace Sys2Proof.Machine

variable {c : Cfg} {p : Position} {s t u : State} {i : Instr} {inp : Input} {rest inps : List Input} {win : Window}
  {v k : Word} {ks : List Word}

/-! ### The key of an input is that of its operation -/

/-- A write to the Write-Sequence register writes its key. -/
theorem keyWritten_encodeWrite_wrSeq (hw : win.holdsRegisters = true) (v : Word) :
    keyWritten c (encodeWrite c win .wrSeq v) = some (c.key v) := by
  simp [keyWritten, encodeWrite, txSize_packTx, hw, Cfg.offsetOf]

/-- An input that writes a key decodes to a write-sequence write of it. -/
theorem decode_of_keyWritten (hc : c.wf = true) (hk : keyWritten c inp = some k) (h : decode c p inp = .ok i) :
    ∃ win v, i = decodeWrSeqWrite c p win v ∧ k = c.key v := by
  cases inp with
  | attach | hardReset | detach => cases hk
  | transaction tx data =>
    simp only [keyWritten, Option.ite_none_right_eq_some, Option.some.injEq] at hk
    obtain ⟨⟨hd, hw, hn, ho⟩, rfl⟩ := hk
    obtain ⟨hread, -⟩ | ⟨-, -, rfl⟩ := decode_transaction_ok h
    · simp [hd] at hread
    · obtain ⟨hr, hb⟩ := registerAt_offsetOf hc .wrSeq hw
      have ha : (c.offsetOf .wrSeq).toNat % 4 = 0 := by simpa [badWidth] using hb
      refine ⟨txWindow tx, wordOfBytes data, ?_, rfl⟩
      rw [hn, ho]
      exact decodeWrite_of_register hw ha hr

/-- Whichever of the three a write-sequence write is, it writes the key of its value. -/
theorem writtenKey_decodeWrSeqWrite (c : Cfg) (p : Position) (win : Window) (v : Word) :
    writtenKey c (decodeWrSeqWrite c p win v) = some (c.key v) := by
  unfold decodeWrSeqWrite
  split
  · rfl
  · split <;> rfl

/-- An operation that writes a key stands for an input that writes it. -/
theorem keyWritten_of_standsFor (h : StandsFor c p i inp) (hk : writtenKey c i = some k) :
    keyWritten c inp = some k := by
  obtain ⟨rfl, hw, -⟩ := h
  cases i with
  | wrWrSeqFlush | wrWrSeqMatch | wrWrSeqMismatch => exact (keyWritten_encodeWrite_wrSeq hw _).trans hk
  | _ => cases hk

/-- What an input writes of keys is what the operation it decodes to does. -/
theorem keyWritten_eq_writtenKey (hc : c.wf = true) (h : decode c p inp = .ok i) :
    keyWritten c inp = writtenKey c i := by
  cases hk : keyWritten c inp with
  | some k =>
    obtain ⟨win, v, rfl, rfl⟩ := decode_of_keyWritten hc hk h
    exact (writtenKey_decodeWrSeqWrite c p win v).symm
  | none =>
    refine (Option.eq_none_iff_forall_ne_some.mpr fun k hi => ?_).symm
    simp [keyWritten_of_standsFor (decode_standsFor h) hi] at hk

/-! ### A run, one input at a time -/

/-- No effect touches the pending inputs (20_memory.md R62). -/
theorem effect_inputs (i : Instr) (s : State) : (effect i s).inputs = s.inputs := by
  cases i with
  | rdDoorbell | rdWrSeq | rdHostDiag | rdIntStatus | rdIntMask | rdHcbSize | rdDiagWin | rdUnimpl | rdBadWidth =>
    rw [(effect_of_isRead rfl s).1]
  | wrDoorbellMur => exact softReset_inputs s
  | wrDoorbellHandshake => rw [effect, State.startHandshake_eq]
  | wrDoorbellData _ v => exact s.acceptWord_inputs v
  | wrWrSeqMatch => exact s.advanceKey_inputs
  | wrHostDiag win v =>
    obtain e | e := effect_wrHostDiag_cases s win v
    · rw [e]
    · rw [e, State.diagResetNow_eq]
  | wrIntStatus =>
    obtain ⟨-, e⟩ | ⟨-, -, e⟩ | ⟨-, -, e⟩ := s.acknowledge_cases
    all_goals simp [effect, e]
  | wrIntMask => exact State.irqEval_inputs _
  | evAttach => rw [effect, State.attachNow_eq]
  | evHardReset => rw [effect, State.hardReset_eq]
  | evDetach =>
    obtain ⟨-, -, hin, -⟩ := s.detachNow_keeps
    exact hin
  | wrDoorbellOverrun | wrDoorbellOtherFn | wrDoorbellInRead | wrWrSeqFlush | wrWrSeqMismatch | wrHcbSize | wrDiagWin
  | wrUnimpl | wrBadWidth => rfl

/-- Nor does an operation, also where the invariant check halts or corrects the block. -/
theorem exec_inputs (h : exec i s = .next t) : t.inputs = s.inputs := by
  obtain ⟨-, ⟨rfl, -⟩ | ⟨rfl, -⟩ | ⟨rfl, -⟩⟩ := exec_completes h
  · exact effect_inputs i s
  · exact s.raiseFatal_inputs
  · exact effect_inputs i s.selfCorrect

/-- A run that completes has taken a first step. -/
theorem exists_step_of_deliver (h : deliver s (inp :: rest) = .next t) :
    ∃ u, step { s with inputs := inp :: rest } = .next u := by
  have hrun : Host.Core.run core (rest.length + 1) { s with inputs := inp :: rest } = .next t := h
  simp only [Host.Core.run] at hrun
  split at hrun
  · next u hs => exact ⟨u, hs⟩
  · cases hrun
  · cases hrun

/-- That step has run the operation its input decodes to, and the run has gone on from there. -/
theorem deliver_cons_next (h : deliver s (inp :: rest) = .next t) :
    ∃ i u, decode s.cfg s.decodePosition inp = .ok i ∧ exec i (s.beginStep rest) = .next u ∧
      deliver u rest = .next t := by
  obtain ⟨u, hs⟩ := exists_step_of_deliver h
  obtain ⟨hnil, -⟩ | ⟨_, _, i, hin, hd, he⟩ := step_next hs
  · cases hnil
  · cases hin
    exact ⟨i, u, hd, he, (deliver_cons hd he (exec_inputs he)).symm.trans h⟩

/-! ### The keys that the progress counts -/

/-- Unless the block is detached, the keys written so far end with the keys that the progress counts. -/
def CountsKeys (ks : List Word) (s : State) : Prop :=
  s.life ≠ .detached → s.cfg.keys.toList.take s.progress <:+ ks

/-- At progress 0 no key is counted. -/
theorem CountsKeys.of_progress_zero (hp : s.progress = 0) (ks : List Word) : CountsKeys ks s := by
  intro _
  rw [hp]
  exact List.nil_suffix

/-- The expected key joins the keys counted before it. -/
theorem take_succ_suffix_of_expectedKey {keys : List Word} {n : Nat} (h : keys.take n <:+ ks) (hk : keys[n]? = some k) :
    keys.take (n + 1) <:+ ks ++ [k] := by
  rw [List.take_add_one, hk]
  exact List.suffix_append_self_iff.mpr h

/-- An operation that completes counts the key it writes where it is the expected one, and keeps the count only where it
writes none. -/
theorem CountsKeys.exec (h : CountsKeys ks s) (he : exec i s = .next t) :
    CountsKeys (ks ++ (writtenKey s.cfg i).toList) t := by
  obtain ⟨rfl, -⟩ | ⟨-, ha⟩ := (exec_completes he).1
  · obtain ⟨-, rfl⟩ := execEvAttach_next.mp he
    exact .of_progress_zero (by rw [State.attachNow_eq]) _
  · intro hl
    have hcount : s.cfg.keys.toList.take s.progress <:+ ks := h (by simp [ha])
    rw [exec_cfg he]
    cases exec_progressMoves he hl with
    | kept hk hp => rwa [hk, hp, Option.toList_none, List.append_nil]
    | advanced hk hp =>
      rw [hp]
      exact take_succ_suffix_of_expectedKey hcount hk
    | cleared _ hp =>
      rw [hp]
      exact List.nil_suffix

/-- The keys of a sequence of inputs are those of its first operation and of the rest. -/
theorem keysWritten_cons (hc : c.wf = true) (hd : decode c p inp = .ok i) (rest : List Input) :
    keysWritten c (inp :: rest) = (writtenKey c i).toList ++ keysWritten c rest := by
  have hk := keyWritten_eq_writtenKey hc hd
  rw [keysWritten, List.filterMap_cons, hk]
  cases writtenKey c i <;> rfl

/-- A run that completes counts the keys its inputs write. -/
theorem CountsKeys.deliver (hc : s.cfg.wf = true) (h : CountsKeys ks s) (hrun : deliver s inps = .next t) :
    CountsKeys (ks ++ keysWritten s.cfg inps) t ∧ t.cfg = s.cfg := by
  induction inps generalizing s ks with
  | nil =>
    cases hrun
    exact ⟨(List.append_nil ks).symm ▸ h, rfl⟩
  | cons inp rest ih =>
    obtain ⟨i, u, hd, he, hrest⟩ := deliver_cons_next hrun
    have hcfg : u.cfg = s.cfg := (exec_cfg he).trans (s.beginStep_cfg rest)
    have hu : CountsKeys (ks ++ (writtenKey s.cfg i).toList) u := CountsKeys.exec (s := s.beginStep rest) h he
    obtain ⟨ht, htcfg⟩ := ih (hcfg ▸ hc) hu hrest
    rw [hcfg, List.append_assoc, ← keysWritten_cons hc hd] at ht
    exact ⟨ht, htcfg.trans hcfg⟩

/-- Settles O39: progress 6 counts the whole key table. -/
theorem unlockedOnlyByKeysInOrder : Obligations.UnlockedOnlyByKeysInOrder := by
  intro s t inps hc hp hrun hl hp6
  obtain ⟨hcount, hcfg⟩ := CountsKeys.deliver hc (.of_progress_zero hp []) hrun
  obtain ⟨earlier, he⟩ := hcount hl
  refine ⟨earlier, ?_⟩
  rw [hp6, hcfg] at he
  exact he.symm

end Sys2Proof.Machine
end

section
/-! SUPPORT. The write of the host-control-block size register (44_ioc_state_register_file.md, R176). -/

namespace Sys2Proof.Machine

/-- Settles O40: the write is gated by the attachment alone, and its effect is the stored value. -/
theorem hcbSizeWriteStoresValue : Obligations.HcbSizeWriteStoresValue :=
  fun _ _ _ ha => execWrHcbSize_next.mpr ⟨ha, rfl⟩

end Sys2Proof.Machine
end

section
/-! SUPPORT. Which operations log a violation, and that each of them logs one (60_exceptions.md R202, R212). -/

namespace Sys2Proof.Machine

variable {s t : State} {i : Instr}

/-- The change from `s` to `t` appends events, and no violation among them. -/
def LogsNone (s t : State) : Prop := ∃ es, t.events = s.events ++ es ∧ violationCount es = 0

/-- A change that appends no event at all. -/
theorem LogsNone.of_eq (he : t.events = s.events) : LogsNone s t := ⟨[], by rw [he, List.append_nil], rfl⟩

/-- An interrupt evaluation logs no violation (42_interrupt_arbiter.md R141). -/
theorem violationCount_irqEvents (msix level : Bool) : violationCount (irqEvents msix level) = 0 := by
  cases msix <;> cases level <;> rfl

/-- Nor does a soft reset, between its two evaluations (70_reset_and_hazards.md R225). -/
theorem violationCount_softResetEvents (c : Cfg) (msix : Bool) (w : Word) :
    violationCount (softResetEvents c msix w) = 0 := by
  have happ (xs ys : List Event) : violationCount (xs ++ ys) = violationCount xs + violationCount ys :=
    List.countP_append
  simp only [softResetEvents, happ, violationCount_irqEvents]
  rfl

theorem LogsNone.of_irqEvents {msix level : Bool} (he : t.events = s.events ++ irqEvents msix level) : LogsNone s t :=
  ⟨_, he, violationCount_irqEvents msix level⟩

theorem LogsNone.of_softResetEvents {c : Cfg} {msix : Bool} {w : Word}
    (he : t.events = s.events ++ softResetEvents c msix w) : LogsNone s t :=
  ⟨_, he, violationCount_softResetEvents c msix w⟩

theorem acceptWord_logsNone (s : State) (v : Word) : LogsNone s (s.acceptWord v) := by
  obtain ⟨ws, -, -, e⟩ | ⟨-, -, e⟩ | ⟨-, e⟩ := s.acceptWord_cases v
  · rw [e, State.enterRead_eq]
    exact .of_irqEvents rfl
  · rw [e]
    exact .of_eq rfl
  · rw [e]
    exact .of_eq rfl

theorem acknowledge_irqEval_logsNone (s : State) : LogsNone s s.acknowledge.irqEval := by
  have he : s.acknowledge.events = s.events := by
    obtain ⟨-, e⟩ | ⟨-, -, e⟩ | ⟨-, -, e⟩ := s.acknowledge_cases
    all_goals simp [e]
  exact .of_irqEvents (by rw [State.irqEval_events, he])

theorem detachNow_logsNone (s : State) : LogsNone s s.detachNow := by
  obtain ⟨-, -, -, -, he, -⟩ := s.detachNow_keeps
  refine ⟨_, he, ?_⟩
  cases s.msixInUse <;> rfl

/-- The operations that are abnormal accesses: a wrong width, key, index or state, and the offsets and functions that
are not implemented (60_exceptions.md R191 to R199). -/
def logsViolation : List Op :=
  [.wrDoorbellOverrun, .wrDoorbellOtherFn, .wrDoorbellInRead, .rdWrSeq, .wrWrSeqMismatch, .rdDiagWin, .wrDiagWin, .rdUnimpl,
    .wrUnimpl, .rdBadWidth, .wrBadWidth]

/-- The effect of each of them logs one violation and nothing else. -/
theorem effect_logs_one (h : i.op ∈ logsViolation) (s : State) :
    ∃ v, (effect i s).events = s.events ++ [.violation v] := by
  cases i with
  | wrDoorbellOverrun | wrDoorbellOtherFn | wrDoorbellInRead | rdWrSeq | wrWrSeqMismatch | rdDiagWin | wrDiagWin | rdUnimpl
  | wrUnimpl | rdBadWidth | wrBadWidth => exact ⟨_, rfl⟩
  | _ => exact absurd h (by simp [logsViolation, Instr.op])

/-- The effect of any other operation logs none. -/
theorem effect_logsNone (h : i.op ∉ logsViolation) (s : State) : LogsNone s (effect i s) := by
  cases i with
  | rdDoorbell =>
    obtain e | ⟨-, -, e⟩ := s.readDoorbell_cases
    all_goals
      rw [effect, e]
      exact .of_eq rfl
  | wrDoorbellMur => exact .of_softResetEvents (congrArg State.events s.softReset_eq)
  | wrDoorbellHandshake _ v => exact .of_irqEvents (congrArg State.events (s.startHandshake_eq v))
  | wrDoorbellData _ v => exact acceptWord_logsNone s v
  | wrWrSeqMatch =>
    obtain ⟨-, e⟩ | ⟨-, e⟩ := s.advanceKey_cases
    all_goals
      rw [effect, e]
      exact .of_eq rfl
  | wrHostDiag win v =>
    obtain e | e := effect_wrHostDiag_cases s win v
    · exact .of_eq (congrArg State.events e)
    · exact .of_softResetEvents (congrArg State.events (e.trans s.diagResetNow_eq))
  | wrIntStatus => exact acknowledge_irqEval_logsNone s
  | wrIntMask => exact .of_irqEvents (State.irqEval_events _)
  | evAttach => exact .of_softResetEvents (congrArg State.events s.attachNow_eq)
  | evHardReset => exact .of_softResetEvents (congrArg State.events s.hardReset_eq)
  | evDetach => exact detachNow_logsNone s
  | wrWrSeqFlush | rdHostDiag | rdIntStatus | rdIntMask | rdHcbSize | wrHcbSize => exact .of_eq rfl
  | wrDoorbellOverrun | wrDoorbellOtherFn | wrDoorbellInRead | rdWrSeq | wrWrSeqMismatch | rdDiagWin | wrDiagWin | rdUnimpl
  | wrUnimpl | rdBadWidth | wrBadWidth => exact absurd (by simp [logsViolation, Instr.op]) h

/-- Settles O53: in a consistent state an operation that completes has its effect alone, which logs one violation or
none; the invariant check, the other source of violations, passes. -/
theorem atMostOneViolation : Obligations.AtMostOneViolation := by
  intro s t i hc h
  obtain ⟨-, rfl, -⟩ := exec_effect hc h
  by_cases hv : i.op ∈ logsViolation
  · obtain ⟨v, he⟩ := effect_logs_one hv s
    exact ⟨[.violation v], he, le_rfl⟩
  · obtain ⟨es, he, hn⟩ := effect_logsNone hv s
    exact ⟨es, he, hn.trans_le zero_le_one⟩

end Sys2Proof.Machine
end

section
/-! SUPPORT. The three fabric events: where an attach, a hard reset and a detach lead, and that an attach reads nothing of
the block it replaces (70_reset_and_hazards.md R226 to R229). -/

namespace Sys2Proof.Machine

variable {s s' : State}

/-! ### One event -/

/-- While attached, a further attach has no step (70_reset_and_hazards.md R227). -/
theorem exec_evAttach_of_attached (h : s.life = .attached) : exec .evAttach s = .refused .alreadyAttached := by
  simp only [exec, execEvAttach, h]

/-- Settles O44: detached, an attach completes with the state of `State.attachNow_eq`; attached, it is refused. -/
theorem attachReachesResetState : Obligations.AttachReachesResetState :=
  fun s => ⟨fun hd => execEvAttach_next.mpr ⟨hd, s.attachNow_eq.symm⟩, exec_evAttach_of_attached⟩

/-- Settles O45: while attached the reset completes, with the effect of `State.hardReset_eq`. -/
theorem hardResetReachesResetState : Obligations.HardResetReachesResetState :=
  fun s ha => execEvHardReset_next.mpr ⟨ha, s.hardReset_eq.symm⟩

/-- Settles O46: halted, every operation faults; attached, the detach completes, and `State.detachNow_keeps` says what it
leaves defined. -/
theorem detachReleasesLine : Obligations.DetachReleasesLine := by
  refine ⟨fun s hh => exec_of_halted hh, fun s ha => ?_⟩
  obtain ⟨hlife, hcfg, hin, hrdata, hevents, -⟩ := s.detachNow_keeps
  exact ⟨s.detachNow, execEvDetach_next.mpr ⟨ha, rfl⟩, hlife, hevents, hcfg, hin, hrdata⟩

/-! ### A detach and an attach -/

/-- An attach reads of the block's state the configuration alone, next to the pending inputs, the output and the count of
undefined objects: none of the storage elements (70_reset_and_hazards.md R227). -/
theorem State.attachNow_congr (hc : s.cfg = s'.cfg) (hi : s.inputs = s'.inputs) (hr : s.rdata = s'.rdata)
    (he : s.events = s'.events) (hf : s.freeCount = s'.freeCount) : s.attachNow = s'.attachNow := by
  rw [s.attachNow_eq, s'.attachNow_eq, hc, hi, hr, he, hf]

/-- The state in which a delivered detach and attach leave an attached block. -/
def State.reattached (s : State) : State := ((s.beginStep [.attach]).detachNow.beginStep []).attachNow

/-- A delivered detach and attach complete: the detach because the block is attached, the attach because it then is not. -/
theorem deliver_detach_attach (ha : s.life = .attached) : deliver s [.detach, .attach] = .next s.reattached := by
  obtain ⟨hlife, -, hin, -⟩ := (s.beginStep [.attach]).detachNow_keeps
  have hdetach : exec .evDetach (s.beginStep [.attach]) = .next (s.beginStep [.attach]).detachNow :=
    execEvDetach_next.mpr ⟨ha, rfl⟩
  have hattach : exec .evAttach ((s.beginStep [.attach]).detachNow.beginStep []) = .next s.reattached :=
    execEvAttach_next.mpr ⟨hlife, rfl⟩
  have hnone : s.reattached.inputs = [] := by rw [State.reattached, State.attachNow_eq]; rfl
  calc deliver s [.detach, .attach]
    _ = deliver (s.beginStep [.attach]).detachNow [.attach] := deliver_cons rfl hdetach hin
    _ = deliver s.reattached [] := deliver_cons rfl hattach hnone
    _ = .next s.reattached := by rw [deliver_nil, ← hnone]

/-- Where they leave the block depends on its configuration and its count of undefined objects alone: a detach keeps the
one and raises the other by one, and the attach reads nothing else that differs. -/
theorem State.reattached_congr (hc : s.cfg = s'.cfg) (hf : s.freeCount = s'.freeCount) :
    s.reattached = s'.reattached := by
  obtain ⟨-, hcfg, -, -, -, hcount⟩ := (s.beginStep [.attach]).detachNow_keeps
  obtain ⟨-, hcfg', -, -, -, hcount'⟩ := (s'.beginStep [.attach]).detachNow_keeps
  have hcfgs : (s.beginStep [.attach]).detachNow.cfg = (s'.beginStep [.attach]).detachNow.cfg :=
    hcfg.trans (hc.trans hcfg'.symm)
  have hcounts : (s.beginStep [.attach]).detachNow.freeCount = (s'.beginStep [.attach]).detachNow.freeCount :=
    hcount.trans ((congrArg (· + 1) hf).trans hcount'.symm)
  exact State.attachNow_congr hcfgs rfl rfl rfl hcounts

/-- Settles O47: both runs complete, and an attach reads none of the elements in which the two blocks may differ. -/
theorem reattachForgetsEarlierLife : Obligations.ReattachForgetsEarlierLife := by
  intro s s' hc hf ha ha'
  have hattached : s.reattached.life = .attached := by rw [State.reattached, State.attachNow_eq]
  refine ⟨?_, s.reattached, deliver_detach_attach ha, hattached⟩
  rw [deliver_detach_attach ha, deliver_detach_attach ha', State.reattached_congr hc hf]

end Sys2Proof.Machine
end

section
/-! SUPPORT. The reset state: its configuration is well formed, and it is the state that an attach leaves
(00_scope.md R5, 70_reset_and_hazards.md R229). -/

namespace Sys2Proof

/-- The reply of `H_ECHO` has two words for each word of the message (95_test_vectors.md section 0.1). -/
theorem length_of_echo_answer {msg : List Word} {ws : List Half} (h : Handler.echo.answer msg = .words ws) :
    ws.length = 2 * msg.length := by
  cases h
  simp [List.length_flatMap, Nat.mul_comm]

/-- The decidable items of R5 hold of `CFG_REF`. -/
theorem cfgRef_wf : cfgRef.wf = true := by decide

/-- `CFG_REF` is well formed: its handler answers at most twice the 255 words a message can have (R5 item 7,
assumption 13). -/
theorem cfgRef_WF : cfgRef.WF := by
  refine ⟨cfgRef_wf, fun msg hmsg ws hws => ?_⟩
  have hlen : ws.length = 2 * msg.length := length_of_echo_answer hws
  have hcount : cfgRef.maxCount = 255 := by decide
  have hmax : cfgRef.replyMax = 510 := rfl
  omega

end Sys2Proof

namespace Sys2Proof.Machine

/-- The reset state is the one an attach leaves under its configuration, before any event (R229). -/
theorem State.reset_eq_attachNow : State.reset = { State.reset.attachNow with events := [], freeCount := 0 } := by
  rw [State.attachNow_eq]
  rfl

/-- Settles O11: an attach leaves the invariants, which speak neither of the events nor of the count of undefined
objects. -/
theorem resetSatisfiesInvariant : Obligations.ResetSatisfiesInvariant := by
  have hattach : AttachedInv State.reset.attachNow := attachNow_attachedInv cfgRef_WF
  have hreset : AttachedInv State.reset := by
    rw [State.reset_eq_attachNow]
    exact { hattach with }
  exact ⟨cfgRef_WF, nofun, fun _ => hreset⟩

end Sys2Proof.Machine
end
